-- ==== Sys2Proof/Word.lean ====
section
/-! DEFINITION. The word types of WF-core: every value is unsigned (R2), bit 0 is the least significant bit (R1). -/

namespace Sys2Proof

/-- A byte: 8 bits, 0 to 255 (R2). -/
abbrev Byte := BitVec 8

/-- A `u16`: 16 bits (R2), the width of the checksum accumulator (R21). -/
abbrev U16 := BitVec 16

/-- A register word: 32 bits (R40). -/
abbrev Word := BitVec 32

end Sys2Proof
end

