-- ==== Sys2Proof/Config.lean ====
section
/-! DEFINITION. What an implementation fixes: the literals of the spec as named constants (93 section 3), the one table of
control code bytes (R92), and the parameters the spec leaves to an implementation (R44; D8, D10). -/

namespace Sys2Proof

/-- The control vocabulary `P K R T C E O F` (R91). -/
inductive ControlCode where
  | p | k | r | t | c | e | o | f
  deriving DecidableEq, Repr

/-- The byte value of each control code: the one configuration table of R92.
PRESUMED (the spec's own mark G1: ASCII is general knowledge, D7), unsafe: log entry 5. -/
def Config.codeByte : ControlCode → Byte
  | .p => 0x50
  | .k => 0x4B
  | .r => 0x52
  | .t => 0x54
  | .c => 0x43
  | .e => 0x45
  | .o => 0x4F
  | .f => 0x46

/-- CHUNK_SIZE: payload bytes of a frame (00_scope section 4). -/
abbrev Config.chunkSize : Nat := 256

/-- FRAME_SIZE = CHUNK_SIZE + FLAG_SIZE + CRC_SIZE (00_scope section 4). -/
abbrev Config.frameSize : Nat := 259

/-- Number of image addresses: a 32-bit byte address (R60; D14, log entry 16). -/
abbrev Config.imageSize : Nat := 4294967296

/-- PAD_BYTE (00_scope section 4, R98). -/
def Config.padByte : Byte := 0xFF

/-- CRC_INIT, the initial accumulator (R120). -/
def Config.crcInit : U16 := 0xFFFF

/-- CRC_POLY_REFLECTED, the constant of one bit step (R122). -/
def Config.crcPoly : U16 := 0xA001

/-- MAX_RETRIES default: the reset value of CFG_MAX_RETRIES (R40, R45). -/
def Config.defaultMaxRetries : BitVec 8 := 5

/-- RETRY_DELAY default in milliseconds: the reset value of CFG_RETRY_DELAY_MS (R40, R45). -/
def Config.defaultRetryDelayMs : BitVec 16 := 100

/-- RESP_OTHER_POLICY: what a byte other than `C`/`E` does in the response wait (R173, D8). -/
inductive RespOtherPolicy where
  | reject   -- counts as one rejection and sets PROTO_VIOL: the spec's decision
  | discard  -- the byte is dropped and the wait goes on
  | fatal    -- sets PROTO_VIOL and aborts with UnexpectedControlCode
  deriving DecidableEq, Repr

/-- The model parameters of R44 that decide behaviour: no step of the block changes them. -/
structure Params where
  respOther   : RespOtherPolicy
  waitTimeout : Bool
  deriving DecidableEq, Repr

/-- The spec's decided values: REJECT, and waits unbounded (D8, D10; log entry 4). -/
def Config.params : Params := { respOther := .reject, waitTimeout := false }

end Sys2Proof
end

