-- ==== Sys2Proof/Syntax.lean ====
section
/-! DEFINITION. The instructions: one constructor per row of spec/opcode_table.json, in the table's order. -/

namespace Sys2Proof

/-- The 25 rows of the opcode table: eight control codes (format CTRL8), the data frame (format FRAME259), nine commands
and seven reserved command codes (format CMD32). -/
inductive Instr where
  /-- `P`, host ready to begin (R162). -/
  | ctrlP
  /-- `K`, link/target ready (R163). -/
  | ctrlK
  /-- `R`, host ready to send data (R165). -/
  | ctrlR
  /-- `T`, target ready to receive a chunk (R169). -/
  | ctrlT
  /-- `C`, chunk accepted (R171). -/
  | ctrlC
  /-- `E`, chunk rejected (R172). -/
  | ctrlE
  /-- `O`, full image write complete (R175). -/
  | ctrlO
  /-- `F`, defined but never sent and without meaning when received (R94). -/
  | ctrlF
  /-- The data frame: payload (bytes 0 to 255), continuation flag (byte 256, bit 0), checksum (bytes 257 and 258, low byte
  first) (R95). -/
  | dataFrame (payload : List Byte) (flag : Bool) (crc : U16)
  /-- OP 0 (R107). -/
  | nop
  /-- OP 1 (R124). -/
  | crcInit
  /-- OP 2, with ARG = CMD[15:8] (R125). -/
  | crcByte (arg : Byte)
  /-- OP 3 (R126). -/
  | crcBlock
  /-- OP 4 (R148). -/
  | encode
  /-- OP 5 (R150). -/
  | check
  /-- OP 8 (R161). -/
  | start
  /-- OP 9 (R180). -/
  | clear
  /-- OP 10 (R181). -/
  | cancel
  /-- OP 6, reserved (R108). -/
  | reserved6
  /-- OP 7, reserved (R108). -/
  | reserved7
  /-- OP 11, reserved (R108). -/
  | reserved11
  /-- OP 12, reserved (R108). -/
  | reserved12
  /-- OP 13, reserved (R108). -/
  | reserved13
  /-- OP 14, reserved (R108). -/
  | reserved14
  /-- OP 15, reserved (R108). -/
  | reserved15
  deriving DecidableEq, Repr

/-- The three formats (R90, R105). -/
inductive Format where
  | ctrl8 | frame259 | cmd32
  deriving DecidableEq, Repr

/-- The words of an instruction in its own format: one byte, 259 bytes (index 0 sent first), or one 32-bit register
word (R90, R105). Registers have no byte order (R67), so a command is no byte sequence. -/
inductive Encoded where
  | ctrl8 (b : Byte)
  | frame259 (bytes : List Byte)
  | cmd32 (w : Word)
  deriving DecidableEq, Repr

end Sys2Proof
end

