-- ==== Sys2Proof/WellFormed.lean ====
section
/-! DEFINITION. Which terms of Instr are instructions the encodings can express. -/

namespace Sys2Proof

/-- A data frame has exactly 256 payload bytes (R95, R98); every other constructor's operands fill their fields exactly.
The checksum of a frame is not checked here: a frame whose checksum does not match is a frame all the same, which CHECK
reports on (R149). -/
def Instr.WellFormed : Instr → Bool
  | .dataFrame payload _ _ => payload.length == Config.chunkSize
  | .ctrlP | .ctrlK | .ctrlR | .ctrlT | .ctrlC | .ctrlE | .ctrlO | .ctrlF => true
  | .nop | .crcInit | .crcByte _ | .crcBlock | .encode | .check | .start | .clear | .cancel => true
  | .reserved6 | .reserved7 | .reserved11 | .reserved12 | .reserved13 | .reserved14 | .reserved15 => true

/-- The format of each row of the opcode table. -/
def Instr.format : Instr → Format
  | .ctrlP | .ctrlK | .ctrlR | .ctrlT | .ctrlC | .ctrlE | .ctrlO | .ctrlF => .ctrl8
  | .dataFrame _ _ _ => .frame259
  | .nop | .crcInit | .crcByte _ | .crcBlock | .encode | .check | .start | .clear | .cancel => .cmd32
  | .reserved6 | .reserved7 | .reserved11 | .reserved12 | .reserved13 | .reserved14 | .reserved15 => .cmd32

/-- The format of a word. -/
def Encoded.format : Encoded → Format
  | .ctrl8 _ => .ctrl8
  | .frame259 _ => .frame259
  | .cmd32 _ => .cmd32

/-- A word has the length of its format: 259 bytes for a frame (R90); the other two have it by their types. -/
def Encoded.WellSized : Encoded → Bool
  | .frame259 bytes => bytes.length == Config.frameSize
  | .ctrl8 _ => true
  | .cmd32 _ => true

end Sys2Proof
end

