-- ==== Sys2Proof/Decode.lean ====
section
/-! DEFINITION. Decoding the three formats (R90 to R97, R105, R106), total, rejecting by name; then the encoder. -/

namespace Sys2Proof

/-- Why a word is no row of the opcode table. A command word is never refused: all sixteen OP values are rows (R106). -/
inductive DecodeError where
  /-- A byte outside the vocabulary of R91: the block treats it as an "other byte" (R100), it is no row. -/
  | notAControlCode (b : Byte)
  /-- Not 259 bytes (R90, R145). -/
  | frameLength (n : Nat)
  /-- Byte 256 has one of bits 7 to 1 set (R95, R96: the flag byte is 0 or 1). -/
  | frameFlag (b : Byte)
  deriving DecidableEq, Repr

/-- A control code is recognised by all 8 bits (R93), from the table of R92. -/
def decodeCtrl (b : Byte) : Except DecodeError Instr :=
  if b = Config.codeByte .p then .ok .ctrlP
  else if b = Config.codeByte .k then .ok .ctrlK
  else if b = Config.codeByte .r then .ok .ctrlR
  else if b = Config.codeByte .t then .ok .ctrlT
  else if b = Config.codeByte .c then .ok .ctrlC
  else if b = Config.codeByte .e then .ok .ctrlE
  else if b = Config.codeByte .o then .ok .ctrlO
  else if b = Config.codeByte .f then .ok .ctrlF
  else .error (.notAControlCode b)

/-- OP = CMD[3:0] (R105). -/
def cmdOp (w : Word) : BitVec 4 := w.extractLsb' 0 4

/-- ARG = CMD[15:8] (R105). -/
def cmdArg (w : Word) : Byte := w.extractLsb' 8 8

/-- The command of a CMD word (R106). Bits [7:4] and [31:16] are ignored, and ARG too but by CRC_BYTE (R105). -/
def decodeCmd (w : Word) : Instr :=
  match (cmdOp w).toNat with
  | 0 => .nop
  | 1 => .crcInit
  | 2 => .crcByte (cmdArg w)
  | 3 => .crcBlock
  | 4 => .encode
  | 5 => .check
  | 6 => .reserved6
  | 7 => .reserved7
  | 8 => .start
  | 9 => .clear
  | 10 => .cancel
  | 11 => .reserved11
  | 12 => .reserved12
  | 13 => .reserved13
  | 14 => .reserved14
  | _ => .reserved15

/-- A 16-bit value from its two bytes, low byte first (R65, R109 (e)). -/
def u16OfBytes (lo hi : Byte) : U16 := hi.setWidth 16 <<< 8 ||| lo.setWidth 16

/-- The low byte `v[7:0]` and the high byte `v[15:8]` (R1). -/
def lowByte (v : U16) : Byte := v.extractLsb' 0 8
def highByte (v : U16) : Byte := v.extractLsb' 8 8

/-- The flag byte: 0x00 or 0x01 (R96, R109 (f)). -/
def flagByte (flag : Bool) : Byte := if flag then 0x01 else 0x00

/-- A 259-byte frame, read by the layout of R95. -/
def decodeFrame (bytes : List Byte) : Except DecodeError Instr :=
  match bytes.drop Config.chunkSize with
  | [f, lo, hi] =>
    if f = flagByte true then .ok (.dataFrame (bytes.take Config.chunkSize) true (u16OfBytes lo hi))
    else if f = flagByte false then .ok (.dataFrame (bytes.take Config.chunkSize) false (u16OfBytes lo hi))
    else .error (.frameFlag f)
  | _ => .error (.frameLength bytes.length)

/-- The decoder, total on every word of every format. Nothing in a byte says which format it belongs to (R90): the
format comes with the word, from the place it was taken from. -/
def decode : Encoded → Except DecodeError Instr
  | .ctrl8 b => decodeCtrl b
  | .frame259 bytes => decodeFrame bytes
  | .cmd32 w => .ok (decodeCmd w)

/-- The CMD word with this OP and ARG, the ignored bits zero (R105). -/
def cmdWord (op : BitVec 4) (arg : Byte) : Word := arg.setWidth 32 <<< 8 ||| op.setWidth 32

/-- The 259 bytes of a frame (R95): payload, flag byte, checksum low byte, checksum high byte. -/
def frameBytes (payload : List Byte) (flag : Bool) (crc : U16) : List Byte :=
  payload ++ [flagByte flag, lowByte crc, highByte crc]

/-- The encoder, from the same tables: R92 for control codes, R95 for the frame, R105 and R106 for commands. -/
def encode : Instr → Encoded
  | .ctrlP => .ctrl8 (Config.codeByte .p)
  | .ctrlK => .ctrl8 (Config.codeByte .k)
  | .ctrlR => .ctrl8 (Config.codeByte .r)
  | .ctrlT => .ctrl8 (Config.codeByte .t)
  | .ctrlC => .ctrl8 (Config.codeByte .c)
  | .ctrlE => .ctrl8 (Config.codeByte .e)
  | .ctrlO => .ctrl8 (Config.codeByte .o)
  | .ctrlF => .ctrl8 (Config.codeByte .f)
  | .dataFrame payload flag crc => .frame259 (frameBytes payload flag crc)
  | .nop => .cmd32 (cmdWord 0 0)
  | .crcInit => .cmd32 (cmdWord 1 0)
  | .crcByte arg => .cmd32 (cmdWord 2 arg)
  | .crcBlock => .cmd32 (cmdWord 3 0)
  | .encode => .cmd32 (cmdWord 4 0)
  | .check => .cmd32 (cmdWord 5 0)
  | .start => .cmd32 (cmdWord 8 0)
  | .clear => .cmd32 (cmdWord 9 0)
  | .cancel => .cmd32 (cmdWord 10 0)
  | .reserved6 => .cmd32 (cmdWord 6 0)
  | .reserved7 => .cmd32 (cmdWord 7 0)
  | .reserved11 => .cmd32 (cmdWord 11 0)
  | .reserved12 => .cmd32 (cmdWord 12 0)
  | .reserved13 => .cmd32 (cmdWord 13 0)
  | .reserved14 => .cmd32 (cmdWord 14 0)
  | .reserved15 => .cmd32 (cmdWord 15 0)

/-- Byte `i` of a table word: bit 0 of the word is the least significant bit of the first byte. -/
def tableByte (w i : Nat) : Byte := BitVec.ofNat 8 (w >>> (8 * i))

/-- The first `n` bytes of a table word from byte `i` on. -/
def tableBytes (w : Nat) : Nat → Nat → List Byte
  | _, 0 => []
  | i, n + 1 => tableByte w i :: tableBytes w (i + 1) n

/-- The word of its own format that the opcode table's bits stand for, with every bit above `nbits` zero. A word of at
most 8 bits that is one of the eight control codes is that code; any other word of at most 32 bits is a CMD word; a
longer one, up to 2072 bits, is a frame, and so is a word of no bits (the table gives DATA_FRAME none). DESIGN CHOICE
(log entry 14), safe: the machine itself never tells formats apart this way, the place a word is taken from does (R90). -/
def Encoded.ofTableWord (nbits w : Nat) : Option Encoded :=
  let v := w % 2 ^ nbits
  if nbits = 0 then some (.frame259 (tableBytes 0 0 Config.frameSize))
  else if nbits ≤ 8 then
    match decodeCtrl (BitVec.ofNat 8 v) with
    | .ok _ => some (.ctrl8 (BitVec.ofNat 8 v))
    | .error _ => some (.cmd32 (BitVec.ofNat 32 v))
  else if nbits ≤ 32 then some (.cmd32 (BitVec.ofNat 32 v))
  else if nbits ≤ 2072 then some (.frame259 (tableBytes v 0 Config.frameSize))
  else none

/-- The instruction this decoder reads from a word numbered as the opcode table numbers it; none where it refuses. -/
def decodeTableWord (nbits w : Nat) : Option Instr :=
  match Encoded.ofTableWord nbits w with
  | some e => (decode e).toOption
  | none => none

end Sys2Proof
end

