-- ==== Sys2Proof/Machine/State.lean ====
section
/-! DEFINITION. The state of WF-core as plain data (R20, R43), the inputs of its environment, why a step can stop, and the
state after reset (R45). -/

namespace Sys2Proof.Machine

/-- A byte memory: (address, byte) cells with strictly rising addresses; an address not listed holds no byte. -/
abbrev Memory := List Host.Cell

/-- STATE, 3 bits, six values (R30). -/
inductive FsmState where
  | idle | awaitingLinkReady | sendingHandshake | transferringChunks | complete | aborted
  deriving DecidableEq, Repr

/-- PHASE, 4 bits, nine values (R31): what the FSM does next. -/
inductive Phase where
  | none | sendP | waitK | sendR | waitT | sendFrame | waitResp | retryDelay | waitO
  deriving DecidableEq, Repr

/-- OUTCOME, 2 bits (R32). -/
inductive SessionOutcome where
  | none | inProgress | complete | aborted
  deriving DecidableEq, Repr

/-- The causes ERR_CAUSE records (R220). -/
inductive Cause where
  | none | linkUnavailable | chunkRejectedExceededRetries | unexpectedControlCode | waitTimeout | cancelled
  deriving DecidableEq, Repr

/-- The two byte windows of the buffer port (R40, R62). -/
inductive Window where
  | cb | fb
  deriving DecidableEq, Repr

/-- What the environment answers to the next link access (R200, R202): it works, it fails with `sent` bytes of a send
already out (R201), or, for a wait, it times out (R179). -/
inductive LinkAnswer where
  | ok
  | error (sent : Nat)
  | timedOut
  deriving DecidableEq, Repr

/-- One act of an agent other than the FSM, or the FSM's turn (R7, R204, R208, R242). -/
inductive Input where
  /-- The FSM takes the step its position enables, if any (R160). -/
  | turn
  /-- The caller writes a register; a write of register 0 executes a command (R40, R105). -/
  | regWrite (n : BitVec 4) (v : Word)
  /-- The caller reads a register (R40). -/
  | regRead (n : BitVec 4)
  /-- The caller writes one byte of a window (R62). -/
  | bufWrite (w : Window) (i : Nat) (b : Byte)
  /-- The caller reads one byte of a window (R62). -/
  | bufRead (w : Window) (i : Nat)
  /-- A byte from the target arrives (R64). -/
  | rx (b : Byte)
  /-- The next link access fails, a send after `sent` bytes (R201; `ERRLINK` of R110). -/
  | errLink (sent : Nat)
  /-- The next wait on an empty queue times out, if timeouts are enabled (R179, R202). -/
  | timeOut
  /-- Milliseconds pass; they count in the inter-retry pause only (R174, R241). -/
  | elapse (ms : Nat)
  /-- The caller places one byte of the image (R252 (2)). -/
  | imgPlace (a : Word) (b : Byte)
  /-- The reset input is asserted and released, a frame being sent cut after `cut` bytes (R250, R251). -/
  | reset (cut : Nat)
  deriving DecidableEq, Repr

/-- Why the machine stops with a fault. -/
inductive Fault where
  /-- Raised by CRC_BLOCK, ENCODE, CHECK and by a buffer read when they need a byte of CB or FB that nothing has written
  since reset (R45, U4: "a model treats it as a fault of the caller, never as a value"). Safe: log entry 9. -/
  | unwrittenByte
  /-- Raised by DATA_FRAME when the caller did not place a byte of the chunk before START (R252 (2)). Safe: log
  entry 10. -/
  | imageByteNotPlaced
  /-- Raised by DATA_FRAME when CHUNK_IDX is not below N(IMG_LEN): "`chunk_of(k)` is undefined for `k >= N(L)` and the
  FSM never asks for it" (R141); no state reached from reset raises it. Safe: log entry 18. -/
  | noSuchChunk
  deriving DecidableEq, Repr

/-- Why a step has no meaning. -/
inductive Refusal where
  /-- Raised by an arm of exec for an instruction without a meaning: no arm does. Safe. -/
  | notModelled (mnemonic : String)
  /-- Raised by imgPlace when a byte of the image store would change while BUSY = 1: "a run where it changes has no
  meaning" (U5; R61, R260). At an address at or above IMG_LEN, where the spec is silent, it is raised too (DESIGN CHOICE).
  Safe: log entry 10. -/
  | imageChangedDuringSession
  deriving DecidableEq, Repr

/-- The state: the architectural state of R20, the hidden state of R43, the parameters of R44, and the model's own
fields for what the environment does. -/
structure State where
  /-- CRC_ACC (R21). -/
  crcAcc : U16
  /-- CB, cells 0 to 255; an index not listed is an unwritten byte (R22). -/
  cb : Memory
  /-- CB_LEN (R23). -/
  cbLen : BitVec 9
  /-- FB, cells 0 to 258; an index not listed is an unwritten byte (R24). -/
  fb : Memory
  /-- CHK_OK (R25). -/
  chkOk : Bool
  /-- CHK_FLAG_LEGAL (R25). -/
  chkFlagLegal : Bool
  /-- CHK_FLAG (R25). -/
  chkFlag : Byte
  /-- CHK_CRC_RX (R25). -/
  chkCrcRx : U16
  /-- STATE (R30). -/
  state : FsmState
  /-- PHASE (R31). -/
  phase : Phase
  /-- OUTCOME (R32). -/
  outcome : SessionOutcome
  /-- CHUNK_IDX (R33). -/
  chunkIdx : BitVec 32
  /-- RETRY_CNT (R34). -/
  retryCnt : BitVec 8
  /-- ERR_CAUSE (R35, R220). -/
  errCause : Cause
  /-- ERR_CHUNK (R35). -/
  errChunk : BitVec 32
  /-- PROTO_VIOL, sticky (R36). -/
  protoViol : Bool
  /-- CMD_ERR, sticky (R36). -/
  cmdErr : Bool
  /-- IMG_LEN (R37). -/
  imgLen : BitVec 32
  /-- CFG_MAX_RETRIES (R38). -/
  cfgMaxRetries : BitVec 8
  /-- CFG_RETRY_DELAY_MS (R39). -/
  cfgRetryDelayMs : BitVec 16
  /-- RXQ, oldest byte first (R43 (a)). -/
  rxq : List Byte
  /-- TXH, the stream TX as history, first byte sent first (R43 (b)). -/
  txh : List Byte
  /-- DELAY_T, milliseconds in PHASE RETRY_DELAY (R43 (c), R241; DESIGN CHOICE, log entry 8). -/
  delayT : Nat
  /-- IMG, the image store (R61): a parameter of the step relation (R44); DESIGN CHOICE, log entry 10. -/
  img : Memory
  /-- RESP_OTHER_POLICY and WAIT_TIMEOUT (R44): parameters of the step relation; DESIGN CHOICE, log entry 4. -/
  params : Params
  /-- The model's own: what the caller and the environment do next, oldest first (DESIGN CHOICE, log entry 1). -/
  inputs : List Input
  /-- The model's own: the environment's answer to the next link access (DESIGN CHOICE, log entry 2). -/
  answer : LinkAnswer
  /-- The model's own: the data the caller's last read returned (DESIGN CHOICE, log entry 12). -/
  portData : Word
  deriving DecidableEq, Repr

/-- The machine right after reset, at the start of a run (R45). RXQ, DELAY_T, IMG, the parameters and the model's own
fields have no reset value in the spec: log entries 1, 2, 4, 6, 8, 10, 12. -/
def State.reset : State where
  crcAcc := Config.crcInit
  cb := []
  cbLen := 0
  fb := []
  chkOk := false
  chkFlagLegal := false
  chkFlag := 0
  chkCrcRx := 0
  state := .idle
  phase := .none
  outcome := .none
  chunkIdx := 0
  retryCnt := 0
  errCause := .none
  errChunk := 0
  protoViol := false
  cmdErr := false
  imgLen := 0
  cfgMaxRetries := Config.defaultMaxRetries
  cfgRetryDelayMs := Config.defaultRetryDelayMs
  rxq := []
  txh := []
  delayT := 0
  img := []
  params := Config.params
  inputs := []
  answer := .ok
  portData := 0

end Sys2Proof.Machine
end

