-- ==== Sys2Proof/Machine/Ops.lean ====
section
/-! DEFINITION. The named operations over memory, the link and the control position: MemRead and MemWrite (R6), LinkSend
(R200, R201), LinkRead (R202), the abort entry (R230) and the return from it (R180, R234). -/

namespace Sys2Proof.Machine

/-- Addresses strictly rising and all below `size`: the canonical form of a memory of `size` bytes. -/
abbrev Memory.wf (m : Memory) (size : Nat) : Prop :=
  m.Pairwise (fun c d => c.1 < d.1) ∧ ∀ c ∈ m, c.1 < size

/-- The byte at an address; none where no byte has been written (R22, R45). -/
def Memory.read (m : Memory) (a : Nat) : Option Byte :=
  (m.find? (fun c => c.1 == a)).map Prod.snd

/-- `MemRead(space, a, n)` (R6): the `n` bytes from `a` on in rising order; none when one of them is missing. The cells
are walked once, in their canonical order (Laws: `readBytes_eq_some_iff`, it is `read` at each address). -/
def Memory.readBytes : Memory → Nat → Nat → Option (List Byte)
  | _, _, 0 => some []
  | [], _, _ + 1 => none
  | c :: m, a, n + 1 =>
    if c.1 < a then Memory.readBytes m a (n + 1)
    else if c.1 = a then (Memory.readBytes m (a + 1) n).map (c.2 :: ·)
    else none

/-- The cells of a byte sequence placed at `a`. -/
def Memory.cells : Nat → List Byte → Memory
  | _, [] => []
  | a, b :: bs => (a, b) :: Memory.cells (a + 1) bs

/-- `MemWrite(space, a, n, bs)` (R6): the bytes at `a` to `a + n - 1` replaced, every other byte as it was. -/
def Memory.writeBytes (m : Memory) (a : Nat) (bs : List Byte) : Memory :=
  m.filter (fun c => decide (c.1 < a)) ++ Memory.cells a bs ++ m.filter (fun c => decide (a + bs.length ≤ c.1))

/-- One byte written (R62). -/
def Memory.write (m : Memory) (a : Nat) (b : Byte) : Memory := m.writeBytes a [b]

/-- The control position: `STATE <- st; PHASE <- ph` (R6: the block's `pc <- target`). -/
def moveTo (st : FsmState) (ph : Phase) (s : State) : State := { s with state := st, phase := ph }

/-- The abort entry `raise cause(CHUNK_IDX)`, this hardware's taking of an exception (R230): cause and chunk recorded,
OUTCOME aborted, control to (Aborted, NONE), nothing else. -/
def raise (cause : Cause) (s : State) : State :=
  { s with errCause := cause, errChunk := s.chunkIdx, outcome := .aborted, state := .aborted, phase := .none }

/-- The return from Aborted or Complete, the effect of CLEAR (R180, R234): the session and error registers zeroed,
control to (Idle, NONE), nothing restored. -/
def returnToIdle (s : State) : State :=
  { s with
    state := .idle, phase := .none, outcome := .none
    chunkIdx := 0, retryCnt := 0, errCause := .none, errChunk := 0 }

/-- How much of `bs` goes out on a failed send that breaks off after `sent` bytes: never all of it (R201). -/
def sentBeforeFailure (sent : Nat) (bs : List Byte) : List Byte := bs.take (min sent (bs.length - 1))

/-- `LinkSend(bs)` (R200, R201): whether the Link Adapter answered `ok`, and the state with what went out appended to
TX. The environment's answer is used up; a send has no timeout. -/
def linkSend (bs : List Byte) (s : State) : Bool × State :=
  match s.answer with
  | .error sent => (false, { s with txh := s.txh ++ sentBeforeFailure sent bs, answer := .ok })
  | .ok => (true, { s with txh := s.txh ++ bs, answer := .ok })
  | .timedOut => (true, { s with txh := s.txh ++ bs, answer := .ok })

/-- A transition that sends `bs` and then has the effect `k`; a failed send raises LinkUnavailable instead (R178). -/
def sendThen (bs : List Byte) (k : State → State) (s : State) : State :=
  match linkSend bs s with
  | (true, t) => k t
  | (false, t) => raise .linkUnavailable t

/-- What `LinkRead()` can answer (R202). -/
inductive ReadResult where
  | byte (b : Byte) (s : State)
  | failed (s : State)
  | timedOut (s : State)
  | blocked
  deriving DecidableEq, Repr

/-- `LinkRead()` (R202), in the order of its pseudocode: a link failure first (no byte consumed), then the head of RXQ,
then a timeout if timeouts are enabled, else no step. The environment's answer is used up by an access that completes.
DEDUCED (R202 against R179; log entry 3): a timeout comes only when RXQ is empty. -/
def linkRead (s : State) : ReadResult :=
  match s.answer, s.rxq with
  | .error _, _ => .failed { s with answer := .ok }
  | .ok, b :: rest => .byte b { s with rxq := rest, answer := .ok }
  | .timedOut, b :: rest => .byte b { s with rxq := rest, answer := .ok }
  | .timedOut, [] => if s.params.waitTimeout then .timedOut { s with answer := .ok } else .blocked
  | .ok, [] => .blocked

end Sys2Proof.Machine
end

