-- ==== Sys2Proof/Machine/Flags.lean ====
section
/-! DEFINITION. The sticky flags (R36), the derived bits of STATUS (R42) and the encodings of STATE, PHASE, OUTCOME and
ERR_CAUSE a register read shows (R30, R31, R32, R220). -/

namespace Sys2Proof.Machine

/-- A refused command or caller write sets CMD_ERR and has no other effect (R36, R108, R229). -/
def setCmdErr (s : State) : State := { s with cmdErr := true }

/-- PROTO_VIOL is set when a byte other than `C`/`E` is taken for a rejection or is fatal (R36, R173). -/
def setProtoViol (s : State) : State := { s with protoViol := true }

/-- BUSY (R42, R30). -/
def busy (s : State) : Bool :=
  match s.state with
  | .awaitingLinkReady | .sendingHandshake | .transferringChunks => true
  | .idle | .complete | .aborted => false

/-- DONE (R42). -/
def done (s : State) : Bool :=
  match s.state with
  | .complete => true
  | .idle | .awaitingLinkReady | .sendingHandshake | .transferringChunks | .aborted => false

/-- FAILED (R42). -/
def failed (s : State) : Bool :=
  match s.state with
  | .aborted => true
  | .idle | .awaitingLinkReady | .sendingHandshake | .transferringChunks | .complete => false

/-- A step that has its effect when accepted and is refused with CMD_ERR otherwise (R106, R108). -/
def whenAccepted (accepted : Bool) (s : State) (effect : Host.Outcome State Fault Refusal) :
    Host.Outcome State Fault Refusal :=
  if accepted then effect else .next (setCmdErr s)

/-- The encoding of STATE (R30). -/
def stateBits : FsmState → BitVec 3
  | .idle => 0
  | .awaitingLinkReady => 1
  | .sendingHandshake => 2
  | .transferringChunks => 3
  | .complete => 4
  | .aborted => 5

/-- The encoding of PHASE (R31). -/
def phaseBits : Phase → BitVec 4
  | .none => 0
  | .sendP => 1
  | .waitK => 2
  | .sendR => 3
  | .waitT => 4
  | .sendFrame => 5
  | .waitResp => 6
  | .retryDelay => 7
  | .waitO => 8

/-- The encoding of OUTCOME (R32). -/
def outcomeBits : SessionOutcome → BitVec 2
  | .none => 0
  | .inProgress => 1
  | .complete => 2
  | .aborted => 3

/-- The cause codes (R220). -/
def causeBits : Cause → BitVec 4
  | .none => 0
  | .linkUnavailable => 1
  | .chunkRejectedExceededRetries => 2
  | .unexpectedControlCode => 3
  | .waitTimeout => 4
  | .cancelled => 5

/-- A field placed at bit `lo` of a register word, zeros elsewhere (R40). -/
def fieldAt (lo : Nat) {n : Nat} (v : BitVec n) : Word := v.setWidth 32 <<< lo

/-- One bit placed at bit `lo` of a register word. -/
def bitAt (lo : Nat) (b : Bool) : Word := fieldAt lo (BitVec.ofBool b)

/-- STATUS, register 1 (R40, R42). -/
def statusWord (s : State) : Word :=
  fieldAt 0 (stateBits s.state) ||| fieldAt 4 (phaseBits s.phase) ||| fieldAt 8 (outcomeBits s.outcome)
    ||| bitAt 12 (busy s) ||| bitAt 14 (done s) ||| bitAt 15 (failed s)

/-- FLAGS, register 2 (R40). -/
def flagsWord (s : State) : Word := bitAt 0 s.protoViol ||| bitAt 1 s.cmdErr

/-- A write of FLAGS: a 1 clears the bit, a 0 leaves it (R36, R40). -/
def clearFlags (v : Word) (s : State) : State :=
  { s with protoViol := s.protoViol && !v.getLsbD 0, cmdErr := s.cmdErr && !v.getLsbD 1 }

/-- CHK, register 12 (R40). -/
def chkWord (s : State) : Word :=
  bitAt 0 s.chkOk ||| bitAt 1 s.chkFlagLegal ||| fieldAt 8 s.chkFlag ||| fieldAt 16 s.chkCrcRx

end Sys2Proof.Machine
end

