-- ==== Sys2Proof/Machine/Operands.lean ====
section
/-! DEFINITION. Operand assembly (R109): the chunk count (R140), the address and length of a chunk (R99), the chunk itself
(R141, R207), the bytes of CB and FB a command works on, and what a register stores of a written word (R23, R38, R39). -/

namespace Sys2Proof.Machine

/-- `N(L)` = ceil(L / 256) = (L + 255) div 256 (R140). -/
def chunkCount (len : Nat) : Nat := (len + 255) / Config.chunkSize

/-- `256 * k`, the image address of chunk `k` (R99, R109 (b)). -/
def chunkAddr (k : Nat) : Nat := Config.chunkSize * k

/-- `min(256, L - 256*k)`, the length of chunk `k` (R99, R109 (c)). -/
def chunkLen (len k : Nat) : Nat := min Config.chunkSize (len - chunkAddr k)

/-- `chunk_of(k)` = `ImgRead(k)` for an image of `len` bytes (R141, R207); none when a byte was not placed. It is defined
only for `k < N(len)`, which its user checks. -/
def chunkOf (img : Memory) (len k : Nat) : Option (List Byte) := img.readBytes (chunkAddr k) (chunkLen len k)

/-- `N(IMG_LEN)` of a state. -/
def imageChunks (s : State) : Nat := chunkCount s.imgLen.toNat

/-- The chunk CHUNK_IDX names (R168). -/
def currentChunk (s : State) : Option (List Byte) := chunkOf s.img s.imgLen.toNat s.chunkIdx.toNat

/-- `CB[0..CB_LEN)`, the operand of CRC_BLOCK and ENCODE (R126, R148); none when a byte of it is unwritten. -/
def chunkBuffer (s : State) : Option (List Byte) := s.cb.readBytes 0 s.cbLen.toNat

/-- `FB[0..259)`, the operand of CHECK (R150); none when a byte of it is unwritten. -/
def frameBuffer (s : State) : Option (List Byte) := s.fb.readBytes 0 Config.frameSize

/-- What CB_LEN stores of a written word: bits [8:0], and 256 for 257 to 511 (R23). -/
def cbLenOfWord (v : Word) : BitVec 9 :=
  if 256 < (v.extractLsb' 0 9).toNat then 256 else v.extractLsb' 0 9

/-- What CFG_MAX_RETRIES stores of a written word: bits [7:0], and 1 for 0 (R38). -/
def maxRetriesOfWord (v : Word) : BitVec 8 :=
  if v.extractLsb' 0 8 = 0 then 1 else v.extractLsb' 0 8

/-- What CFG_RETRY_DELAY_MS stores of a written word: bits [15:0] (R39, R40). -/
def retryDelayOfWord (v : Word) : BitVec 16 := v.extractLsb' 0 16

end Sys2Proof.Machine
end

