-- ==== Sys2Proof/Machine/Crc.lean ====
section
/-! DEFINITION. The checksum unit: the pure functions (R120 to R122) and the commands CRC_INIT, CRC_BYTE, CRC_BLOCK (R124
to R126). -/

namespace Sys2Proof.Machine

/-- `crc_bit(a)` (R122): bit 0 is tested before the shift. -/
def crcBit (a : U16) : U16 :=
  if a.getLsbD 0 then a >>> 1 ^^^ Config.crcPoly else a >>> 1

/-- `n` bit steps: `crc_bit` applied `n` times (Laws: `crcBits_succ`), with the test of bit 0 outermost so that the
accumulator is evaluated at every step. -/
def crcBits : Nat → U16 → U16
  | 0, a => a
  | n + 1, a => if a.getLsbD 0 then crcBits n (a >>> 1 ^^^ Config.crcPoly) else crcBits n (a >>> 1)

/-- `crc_byte(a, b)` (R121): the byte is XORed into bits [7:0] once, then eight bit steps. -/
def crcByte (a : U16) (b : Byte) : U16 := crcBits 8 (a ^^^ b.setWidth 16)

/-- Continuing from the accumulator `a` over a byte sequence, index 0 first (R120, R127). -/
def crcFold (a : U16) (bs : List Byte) : U16 := bs.foldl crcByte a

/-- `checksum(s)` (R120). -/
def checksum (bs : List Byte) : U16 := crcFold Config.crcInit bs

/-- CRC_INIT (R124). -/
def execCrcInit (s : State) : Host.Outcome State Fault Refusal :=
  whenAccepted (!busy s) s (.next { s with crcAcc := Config.crcInit })

/-- CRC_BYTE (R125): it continues from whatever CRC_ACC holds. -/
def execCrcByte (arg : Byte) (s : State) : Host.Outcome State Fault Refusal :=
  whenAccepted (!busy s) s (.next { s with crcAcc := crcByte s.crcAcc arg })

/-- CRC_BLOCK (R126): from 0xFFFF over CB[0..CB_LEN), not padded; an unwritten byte has no defined result (R45). -/
def execCrcBlock (s : State) : Host.Outcome State Fault Refusal :=
  whenAccepted (!busy s) s
    (match chunkBuffer s with
     | some c => .next { s with crcAcc := checksum c }
     | none => .fault .unwrittenByte)

end Sys2Proof.Machine
end

