-- ==== Sys2Proof/Machine/Codec.lean ====
section
/-! DEFINITION. The frame codec: the pure functions `pad`, `flag_of`, `encode`, `check` (R142 to R149) and the commands
ENCODE and CHECK (R148, R150). -/

namespace Sys2Proof.Machine

/-- `pad(c)` (R142): padded on the right with 0xFF to 256 bytes. -/
def padChunk (c : List Byte) : List Byte := c ++ List.replicate (Config.chunkSize - c.length) Config.padByte

/-- `flag_of(c)` (R143, R96): 1 exactly when no padding was applied; it depends on the length alone. -/
def flagOf (c : List Byte) : Bool := c.length == Config.chunkSize

/-- The data frame of a chunk as an instruction: its payload, flag and checksum (R95 to R98). -/
def frameOfChunk (c : List Byte) : Instr := .dataFrame (padChunk c) (flagOf c) (checksum (padChunk c))

/-- `encode(c)` (R144): padded payload, flag byte, checksum of the padded payload low byte first. -/
def encodeFrame (c : List Byte) : List Byte := frameBytes (padChunk c) (flagOf c) (checksum (padChunk c))

/-- The record `check` answers (R149). -/
structure CheckResult where
  payload   : List Byte
  flag      : Byte
  crcRx     : U16
  crcCalc   : U16
  ok        : Bool
  flagLegal : Bool
  deriving DecidableEq, Repr

/-- `check(f)` for a 259-byte sequence (R149). -/
def checkFrame (f : List Byte) : CheckResult :=
  let payload := f.take Config.chunkSize
  let flag := f.getD 256 0
  let crcRx := u16OfBytes (f.getD 257 0) (f.getD 258 0)
  { payload := payload
    flag := flag
    crcRx := crcRx
    crcCalc := checksum payload
    ok := checksum payload == crcRx
    flagLegal := flag == flagByte false || flag == flagByte true }

/-- Building the frame of a chunk: FB holds `encode(c)`, CRC_ACC the checksum of the padded payload (R148, R168). -/
def buildFrame (c : List Byte) (s : State) : State :=
  { s with fb := s.fb.writeBytes 0 (encodeFrame c), crcAcc := checksum (padChunk c) }

/-- ENCODE (R148). -/
def execEncode (s : State) : Host.Outcome State Fault Refusal :=
  whenAccepted (!busy s) s
    (match chunkBuffer s with
     | some c => .next (buildFrame c s)
     | none => .fault .unwrittenByte)

/-- What CHECK writes (R150). -/
def recordCheck (r : CheckResult) (s : State) : State :=
  { s with
    chkOk := r.ok, chkFlagLegal := r.flagLegal, chkFlag := r.flag, chkCrcRx := r.crcRx
    crcAcc := r.crcCalc }

/-- CHECK (R150): a bad checksum is a result, not an error. -/
def execCheck (s : State) : Host.Outcome State Fault Refusal :=
  whenAccepted (!busy s) s
    (match frameBuffer s with
     | some f => .next (recordCheck (checkFrame f) s)
     | none => .fault .unwrittenByte)

end Sys2Proof.Machine
end

