-- ==== Sys2Proof/Machine/Control.lean ====
section
/-! DEFINITION. The control codes: what a received byte does in the PHASE in which it is consumed (R100, R163, R169 to
R173, R175), what the block sends (R162, R165), and one meaning per code. A received byte has already been taken from RXQ
by LinkRead when its meaning runs; in a PHASE that neither sends the code nor reads, a code has no effect (R100). -/

namespace Sys2Proof.Machine

/-- WAIT_K: `K` goes on, every other byte is discarded (R163). -/
def receiveInWaitK (b : Byte) (s : State) : State :=
  if b = Config.codeByte .k then moveTo .sendingHandshake .sendR s else s

/-- WAIT_T: `T` goes on, every other byte is discarded (R169). -/
def receiveInWaitT (b : Byte) (s : State) : State :=
  if b = Config.codeByte .t then moveTo .transferringChunks .sendFrame s else s

/-- Accepted (R171): the next chunk, or the wait for `O` after the last one. -/
def accepted (s : State) : State :=
  let t := { s with chunkIdx := s.chunkIdx + 1, retryCnt := 0 }
  if t.chunkIdx.toNat = imageChunks t then moveTo .transferringChunks .waitO t
  else moveTo .transferringChunks .waitT t

/-- Entering the inter-retry pause starts its timer (R241). -/
def enterPause (s : State) : State := { moveTo .transferringChunks .retryDelay s with delayT := 0 }

/-- Rejected (R172): the counter is incremented, then compared. -/
def rejected (s : State) : State :=
  let t := { s with retryCnt := s.retryCnt + 1 }
  if t.cfgMaxRetries ≤ t.retryCnt then raise .chunkRejectedExceededRetries t else enterPause t

/-- A byte that is neither `C` nor `E` in WAIT_RESP, by RESP_OTHER_POLICY (R173). -/
def otherByte (s : State) : State :=
  match s.params.respOther with
  | .reject => rejected (setProtoViol s)
  | .discard => s
  | .fatal => raise .unexpectedControlCode (setProtoViol s)

/-- WAIT_RESP: `C` Accepted, `E` Rejected, anything else an other byte (R170). -/
def receiveInWaitResp (b : Byte) (s : State) : State :=
  if b = Config.codeByte .c then accepted s
  else if b = Config.codeByte .e then rejected s
  else otherByte s

/-- WAIT_O: `O` completes the session, every other byte is discarded (R175). -/
def receiveInWaitO (b : Byte) (s : State) : State :=
  if b = Config.codeByte .o then { moveTo .complete .none s with outcome := .complete } else s

/-- The effect of a consumed byte, by the PHASE in which it is consumed (R100). -/
def receive (b : Byte) (s : State) : State :=
  match s.state, s.phase with
  | .awaitingLinkReady, .waitK => receiveInWaitK b s
  | .transferringChunks, .waitT => receiveInWaitT b s
  | .transferringChunks, .waitResp => receiveInWaitResp b s
  | .transferringChunks, .waitO => receiveInWaitO b s
  | _, _ => s

/-- Send `P` (R162). -/
def sendP (s : State) : State :=
  sendThen [Config.codeByte .p] (moveTo .awaitingLinkReady .waitK) s

/-- The session is created (R165, R166); an empty image goes straight to the wait for `O` (R167). -/
def createSession (s : State) : State :=
  let t := { s with chunkIdx := 0, retryCnt := 0, outcome := .inProgress }
  if imageChunks t = 0 then moveTo .transferringChunks .waitO t else moveTo .transferringChunks .waitT t

/-- Send `R` and create the session (R165). -/
def sendR (s : State) : State := sendThen [Config.codeByte .r] createSession s

/-- CTRL_P: sent in SEND_P (R162); received, an other byte (R100). -/
def execCtrlP (s : State) : Host.Outcome State Fault Refusal :=
  match s.state, s.phase with
  | .awaitingLinkReady, .sendP => .next (sendP s)
  | _, _ => .next (receive (Config.codeByte .p) s)

/-- CTRL_K: awaited in WAIT_K (R163), an other byte elsewhere (R100). -/
def execCtrlK (s : State) : Host.Outcome State Fault Refusal := .next (receive (Config.codeByte .k) s)

/-- CTRL_R: sent in SEND_R (R165); received, an other byte (R100). -/
def execCtrlR (s : State) : Host.Outcome State Fault Refusal :=
  match s.state, s.phase with
  | .sendingHandshake, .sendR => .next (sendR s)
  | _, _ => .next (receive (Config.codeByte .r) s)

/-- CTRL_T: awaited in WAIT_T (R169), an other byte elsewhere (R100). -/
def execCtrlT (s : State) : Host.Outcome State Fault Refusal := .next (receive (Config.codeByte .t) s)

/-- CTRL_C: Accepted in WAIT_RESP (R171), an other byte elsewhere (R100). -/
def execCtrlC (s : State) : Host.Outcome State Fault Refusal := .next (receive (Config.codeByte .c) s)

/-- CTRL_E: Rejected in WAIT_RESP (R172), an other byte elsewhere (R100). -/
def execCtrlE (s : State) : Host.Outcome State Fault Refusal := .next (receive (Config.codeByte .e) s)

/-- CTRL_O: awaited in WAIT_O (R175), an other byte elsewhere (R100). -/
def execCtrlO (s : State) : Host.Outcome State Fault Refusal := .next (receive (Config.codeByte .o) s)

/-- CTRL_F: never sent, an other byte everywhere (R94, R100). -/
def execCtrlF (s : State) : Host.Outcome State Fault Refusal := .next (receive (Config.codeByte .f) s)

end Sys2Proof.Machine
end

