-- ==== Sys2Proof/Machine/Frame.lean ====
section
/-! DEFINITION. DATA_FRAME: the frame of the current chunk is built from the image and sent (R168). -/

namespace Sys2Proof.Machine

/-- What the build writes before the send (R168, R231): CB[0..n), CB_LEN, FB, CRC_ACC. -/
def loadChunk (c : List Byte) (s : State) : State :=
  buildFrame c { s with cb := s.cb.writeBytes 0 c, cbLen := BitVec.ofNat 9 c.length }

/-- The transition of SEND_FRAME for a chunk that was read (R168): build, send 259 bytes, wait for the answer. A failed
send raises LinkUnavailable with the buffers already overwritten (R178, R231). -/
def sendFrame (c : List Byte) (s : State) : State :=
  sendThen (encodeFrame c) (moveTo .transferringChunks .waitResp) (loadChunk c s)

/-- DATA_FRAME (R168). Its operands are CHUNK_IDX, IMG_LEN and IMG: the fields of the row are what the step puts on the
wire, not what it reads (DEDUCED, log entry 15). Outside SEND_FRAME the block sends no frame and receives none (R72,
R90), so nothing happens. -/
def execDataFrame (s : State) : Host.Outcome State Fault Refusal :=
  match s.state, s.phase with
  | .transferringChunks, .sendFrame =>
    if s.chunkIdx.toNat < imageChunks s then
      match currentChunk s with
      | some c => .next (sendFrame c s)
      | none => .fault .imageByteNotPlaced
    else .fault .noSuchChunk
  | _, _ => .next s

end Sys2Proof.Machine
end

