-- ==== Sys2Proof/Machine/Commands.lean ====
section
/-! DEFINITION. The commands that are no part of the checksum unit or the codec: NOP, START, CLEAR, CANCEL and the reserved
codes (R106 to R108, R161, R180, R181). -/

namespace Sys2Proof.Machine

/-- NOP (R107). -/
def execNop (s : State) : Host.Outcome State Fault Refusal := .next s

/-- START (R161): accepted in Idle only. -/
def execStart (s : State) : Host.Outcome State Fault Refusal :=
  whenAccepted (decide (s.state = .idle)) s (.next (moveTo .awaitingLinkReady .sendP s))

/-- CLEAR (R180). -/
def execClear (s : State) : Host.Outcome State Fault Refusal :=
  whenAccepted (!busy s) s (.next (returnToIdle s))

/-- CANCEL (R181). -/
def execCancel (s : State) : Host.Outcome State Fault Refusal :=
  whenAccepted (busy s) s (.next (raise .cancelled s))

/-- A reserved OP is never accepted (R106, R108). -/
def reservedCommand (s : State) : Host.Outcome State Fault Refusal := .next (setCmdErr s)

/-- OP 6 (R108). -/
def execReserved6 (s : State) : Host.Outcome State Fault Refusal := reservedCommand s

/-- OP 7 (R108). -/
def execReserved7 (s : State) : Host.Outcome State Fault Refusal := reservedCommand s

/-- OP 11 (R108). -/
def execReserved11 (s : State) : Host.Outcome State Fault Refusal := reservedCommand s

/-- OP 12 (R108). -/
def execReserved12 (s : State) : Host.Outcome State Fault Refusal := reservedCommand s

/-- OP 13 (R108). -/
def execReserved13 (s : State) : Host.Outcome State Fault Refusal := reservedCommand s

/-- OP 14 (R108). -/
def execReserved14 (s : State) : Host.Outcome State Fault Refusal := reservedCommand s

/-- OP 15 (R108). -/
def execReserved15 (s : State) : Host.Outcome State Fault Refusal := reservedCommand s

end Sys2Proof.Machine
end

