-- ==== Sys2Proof/Machine/Dispatch.lean ====
section
/-! DEFINITION. One arm per instruction, each a direct call of its meaning. -/

namespace Sys2Proof.Machine

/-- The meaning of an instruction in a state. -/
def exec (i : Instr) (s : State) : Host.Outcome State Fault Refusal :=
  match i with
  | .ctrlP => Sys2Proof.Machine.execCtrlP s
  | .ctrlK => Sys2Proof.Machine.execCtrlK s
  | .ctrlR => Sys2Proof.Machine.execCtrlR s
  | .ctrlT => Sys2Proof.Machine.execCtrlT s
  | .ctrlC => Sys2Proof.Machine.execCtrlC s
  | .ctrlE => Sys2Proof.Machine.execCtrlE s
  | .ctrlO => Sys2Proof.Machine.execCtrlO s
  | .ctrlF => Sys2Proof.Machine.execCtrlF s
  | .dataFrame _ _ _ => Sys2Proof.Machine.execDataFrame s
  | .nop => Sys2Proof.Machine.execNop s
  | .crcInit => Sys2Proof.Machine.execCrcInit s
  | .crcByte arg => Sys2Proof.Machine.execCrcByte arg s
  | .crcBlock => Sys2Proof.Machine.execCrcBlock s
  | .encode => Sys2Proof.Machine.execEncode s
  | .check => Sys2Proof.Machine.execCheck s
  | .start => Sys2Proof.Machine.execStart s
  | .clear => Sys2Proof.Machine.execClear s
  | .cancel => Sys2Proof.Machine.execCancel s
  | .reserved6 => Sys2Proof.Machine.execReserved6 s
  | .reserved7 => Sys2Proof.Machine.execReserved7 s
  | .reserved11 => Sys2Proof.Machine.execReserved11 s
  | .reserved12 => Sys2Proof.Machine.execReserved12 s
  | .reserved13 => Sys2Proof.Machine.execReserved13 s
  | .reserved14 => Sys2Proof.Machine.execReserved14 s
  | .reserved15 => Sys2Proof.Machine.execReserved15 s

end Sys2Proof.Machine
end

