-- ==== Sys2Proof/Machine/Registers.lean ====
section
/-! DEFINITION. The caller's accesses: the register port (R40, R41) and the buffer port (R62), the image store (R61,
R252), and hardware reset (R250, R251). -/

namespace Sys2Proof.Machine

/-- The value a register read returns (R40). Registers 0 (CMD), 14 and 15 read 0; register 13 is `N(IMG_LEN)`. -/
def regValue (n : BitVec 4) (s : State) : Word :=
  match n.toNat with
  | 1 => statusWord s
  | 2 => flagsWord s
  | 3 => fieldAt 0 (causeBits s.errCause)
  | 4 => s.errChunk
  | 5 => s.chunkIdx
  | 6 => fieldAt 0 s.retryCnt
  | 7 => s.imgLen
  | 8 => fieldAt 0 s.cfgMaxRetries
  | 9 => fieldAt 0 s.cfgRetryDelayMs
  | 10 => fieldAt 0 s.crcAcc
  | 11 => fieldAt 0 s.cbLen
  | 12 => chkWord s
  | 13 => BitVec.ofNat 32 (imageChunks s)
  | _ => 0

/-- A register read has no effect on the block; the port shows the value (R41). -/
def regRead (n : BitVec 4) (s : State) : State := { s with portData := regValue n s }

/-- A write while BUSY = 1 to a frozen register is ignored and sets CMD_ERR (R41). -/
def whenNotBusy (s : State) (written : State) : State := if busy s then setCmdErr s else written

/-- A register write but of CMD (R40, R41): FLAGS clears the bits written 1, registers 7, 8, 9 and 11 are frozen while
BUSY, every other register ignores the write without an error. -/
def regStore (n : BitVec 4) (v : Word) (s : State) : State :=
  match n.toNat with
  | 2 => clearFlags v s
  | 7 => whenNotBusy s { s with imgLen := v }
  | 8 => whenNotBusy s { s with cfgMaxRetries := maxRetriesOfWord v }
  | 9 => whenNotBusy s { s with cfgRetryDelayMs := retryDelayOfWord v }
  | 11 => whenNotBusy s { s with cbLen := cbLenOfWord v }
  | _ => s

/-- A register write: register 0 executes the command of the word as one step (R105). -/
def regWrite (n : BitVec 4) (v : Word) (s : State) : Host.Outcome State Fault Refusal :=
  if n = 0 then exec (decodeCmd v) s else .next (regStore n v s)

/-- How many bytes a window has (R60, R62). -/
def windowSize : Window → Nat
  | .cb => Config.chunkSize
  | .fb => Config.frameSize

/-- The memory behind a window. -/
def windowMem (w : Window) (s : State) : Memory :=
  match w with
  | .cb => s.cb
  | .fb => s.fb

/-- A window with its memory replaced. -/
def setWindow (w : Window) (m : Memory) (s : State) : State :=
  match w with
  | .cb => { s with cb := m }
  | .fb => { s with fb := m }

/-- A buffer write (R62): an index out of range or BUSY = 1 ignores the write and sets CMD_ERR (R41). -/
def bufWrite (w : Window) (i : Nat) (b : Byte) (s : State) : State :=
  if i < windowSize w then whenNotBusy s (setWindow w ((windowMem w s).write i b) s) else setCmdErr s

/-- A buffer read (R62): an index out of range reads 0 and sets CMD_ERR (DEDUCED from R62 against R41, log entry 17); an
unwritten byte has no defined result (R45). -/
def bufRead (w : Window) (i : Nat) (s : State) : Host.Outcome State Fault Refusal :=
  if i < windowSize w then
    match (windowMem w s).read i with
    | some b => .next { s with portData := fieldAt 0 b }
    | none => .fault .unwrittenByte
  else .next { setCmdErr s with portData := 0 }

/-- The caller places an image byte (R252 (2)). While BUSY = 1 the image must not change (R61, R260): an act that would
change it has no meaning (U5); placing the byte that is there changes nothing. DESIGN CHOICE (log entry 10): at an address at
or above IMG_LEN the spec gives IMG no byte (R60) and is silent; the model keeps a byte there too, since IMG_LEN may be
written after the image is placed (R252), and refuses a change of it while BUSY = 1 all the same. -/
def imgPlace (a : Word) (b : Byte) (s : State) : Host.Outcome State Fault Refusal :=
  if busy s && s.img.read a.toNat != some b then .refused .imageChangedDuringSession
  else .next { s with img := s.img.write a.toNat b }

/-- What of a frame being sent went out when reset falls into its send: any leading part (R251). -/
def cutFrame (cut : Nat) (s : State) : List Byte :=
  match s.state, s.phase with
  | .transferringChunks, .sendFrame =>
    if s.chunkIdx.toNat < imageChunks s then
      match currentChunk s with
      | some c => sentBeforeFailure cut (encodeFrame c)
      | none => []
    else []
  | _, _ => []

/-- Hardware reset (R250, R251): every register at its reset value, CB and FB unwritten; RXQ and TXH are kept, as are the
image, the parameters and the model's own fields. The reset input's assertion and release are one step (log entry 11). -/
def resetBlock (cut : Nat) (s : State) : State :=
  { State.reset with
    rxq := s.rxq
    txh := s.txh ++ cutFrame cut s
    img := s.img
    params := s.params
    inputs := s.inputs
    answer := s.answer
    portData := s.portData }

end Sys2Proof.Machine
end

