-- ==== Sys2Proof/Machine/Turn.lean ====
section
/-! DEFINITION. The FSM's turn: the instruction its position calls for is fetched and run (R160); and what each input of
the environment does (R7, R208). -/

namespace Sys2Proof.Machine

/-- The end of the inter-retry pause (R174): always enabled, as a model keeps no time; by then at least
CFG_RETRY_DELAY_MS milliseconds have passed (log entry 8). -/
def endPause (s : State) : State :=
  { moveTo .transferringChunks .waitT s with delayT := max s.delayT s.cfgRetryDelayMs.toNat }

/-- A byte taken from RXQ in a wait phase: a control code runs as the instruction it decodes to, any other byte is an
"other byte" (R93, R100). -/
def runByte (b : Byte) (s : State) : Host.Outcome State Fault Refusal :=
  match decodeCtrl b with
  | .ok i => exec i s
  | .error _ => .next (receive b s)

/-- The turn of a wait phase: one LinkRead (R163, R169, R170, R175). A failed read raises LinkUnavailable (R178), a
timeout WaitTimeout (R179); a blocked wait has no step, so nothing changes (R160, R183; log entry 13). -/
def waitTurn (s : State) : Host.Outcome State Fault Refusal :=
  match linkRead s with
  | .byte b t => runByte b t
  | .failed t => .next (raise .linkUnavailable t)
  | .timedOut t => .next (raise .waitTimeout t)
  | .blocked => .next s

/-- The data frame SEND_FRAME calls for: the encoding of the current chunk (R168). Where there is no such chunk, or a
byte of it was not placed, any frame will do: DATA_FRAME then stops, whatever its fields. -/
def frameToSend (s : State) : Instr :=
  match currentChunk s with
  | some c => frameOfChunk c
  | none => frameOfChunk []

/-- The one FSM step each position enables (R160). Idle, Complete and Aborted have none (R177), and neither has a pair
(STATE, PHASE) outside the table of R31 (log entry 19). -/
def turn (s : State) : Host.Outcome State Fault Refusal :=
  match s.state, s.phase with
  | .awaitingLinkReady, .sendP => exec .ctrlP s
  | .awaitingLinkReady, .waitK => waitTurn s
  | .sendingHandshake, .sendR => exec .ctrlR s
  | .transferringChunks, .waitT => waitTurn s
  | .transferringChunks, .sendFrame => exec (frameToSend s) s
  | .transferringChunks, .waitResp => waitTurn s
  | .transferringChunks, .retryDelay => .next (endPause s)
  | .transferringChunks, .waitO => waitTurn s
  | _, _ => .next s

/-- Milliseconds pass: the timer runs in the pause only (R241). -/
def elapse (ms : Nat) (s : State) : State :=
  match s.state, s.phase with
  | .transferringChunks, .retryDelay => { s with delayT := s.delayT + ms }
  | _, _ => s

/-- What one input does, in the state from which it has been taken. -/
def perform (i : Input) (s : State) : Host.Outcome State Fault Refusal :=
  match i with
  | .turn => turn s
  | .regWrite n v => regWrite n v s
  | .regRead n => .next (regRead n s)
  | .bufWrite w j b => .next (bufWrite w j b s)
  | .bufRead w j => bufRead w j s
  | .rx b => .next { s with rxq := s.rxq ++ [b] }
  | .errLink sent => .next { s with answer := .error sent }
  | .timeOut => .next { s with answer := .timedOut }
  | .elapse ms => .next (elapse ms s)
  | .imgPlace a b => imgPlace a b s
  | .reset cut => .next (resetBlock cut s)

/-- One step: the oldest input, or, when there is none, the FSM's turn (log entry 1). -/
def stepOnce (s : State) : Host.Outcome State Fault Refusal :=
  match s.inputs with
  | [] => turn s
  | i :: rest => perform i { s with inputs := rest }

/-- Whether the FSM reads a byte at its position (R100). -/
def reads (s : State) : Bool :=
  match s.state, s.phase with
  | .awaitingLinkReady, .waitK => true
  | .transferringChunks, .waitT => true
  | .transferringChunks, .waitResp => true
  | .transferringChunks, .waitO => true
  | _, _ => false

/-- The position at which a control code is sent or awaited (R91); for any other byte, the wait for `K`. -/
def positionFor (b : Byte) (s : State) : State :=
  if b = Config.codeByte .p then moveTo .awaitingLinkReady .sendP s
  else if b = Config.codeByte .r then moveTo .sendingHandshake .sendR s
  else if b = Config.codeByte .t then moveTo .transferringChunks .waitT s
  else if b = Config.codeByte .c then moveTo .transferringChunks .waitResp s
  else if b = Config.codeByte .e then moveTo .transferringChunks .waitResp s
  else if b = Config.codeByte .o then moveTo .transferringChunks .waitO s
  else moveTo .awaitingLinkReady .waitK s

/-- The byte placed at the head of RXQ. -/
def queueFirst (b : Byte) (s : State) : State := { s with rxq := b :: s.rxq }

/-- A control code placed where the FSM takes its next one: at the head of RXQ if it is reading; otherwise the FSM stands
where the code is sent, or where it is awaited with the code at the head of RXQ. -/
def placeCtrl (b : Byte) (s : State) : State :=
  if reads s then queueFirst b s
  else if reads (positionFor b s) then queueFirst b (positionFor b s)
  else positionFor b s

/-- A frame placed where the FSM takes its next one: the FSM in SEND_FRAME of chunk 0 of a one-chunk image that holds the
payload (256 bytes for flag 1; 255 bytes for flag 0, the last byte being padding). The frame the FSM then sends is the
placed one exactly when the placed one is an encoding of that chunk (log entry 14). -/
def placeFrame (bytes : List Byte) (s : State) : State :=
  let n := if bytes.getD 256 0 = flagByte true then 256 else 255
  { moveTo .transferringChunks .sendFrame s with
    chunkIdx := 0
    imgLen := BitVec.ofNat 32 n
    img := s.img.writeBytes 0 (bytes.take n) }

/-- An instruction's word placed where the very next step takes its instruction from: a command is the caller's next
write of CMD; a code or a frame is the FSM's next turn, with the environment answering `ok`. -/
def placeWord (e : Encoded) (s : State) : State :=
  match e with
  | .cmd32 w => { s with inputs := .regWrite 0 w :: s.inputs }
  | .ctrl8 b => placeCtrl b { s with inputs := .turn :: s.inputs, answer := .ok }
  | .frame259 bytes => placeFrame bytes { s with inputs := .turn :: s.inputs, answer := .ok }

end Sys2Proof.Machine
end

