-- ==== Sys2Proof/Machine/Step.lean ====
section
/-! DEFINITION. One step of the machine, and how an instruction is placed for the next step. -/

namespace Sys2Proof.Machine

/-- One step (R7): one act of the caller or the environment, or one FSM transition. -/
def step (s : State) : Host.Outcome State Fault Refusal := stepOnce s

/-- `s` with the instruction whose table word is `w` placed where `step` takes its next instruction from (log entry 14).
A word the tables have no format for leaves the state as it is. -/
def State.withFetchWord (s : State) (nbits w : Nat) : State :=
  match Encoded.ofTableWord nbits w with
  | some e => placeWord e s
  | none => s

end Sys2Proof.Machine
end

