-- ==== Sys2Proof/Safety.lean ====
section
/-! DEFINITION. The terms statements are made in: the invariant of the machine, which agent moves, runs of one session, and
states that differ in one respect. -/

namespace Sys2Proof.Safety

open Sys2Proof.Machine

/-- The legal (STATE, PHASE) pairs (R31). -/
def legalPosition : FsmState → Phase → Bool
  | .idle, .none => true
  | .awaitingLinkReady, .sendP => true
  | .awaitingLinkReady, .waitK => true
  | .sendingHandshake, .sendR => true
  | .transferringChunks, .waitT => true
  | .transferringChunks, .sendFrame => true
  | .transferringChunks, .waitResp => true
  | .transferringChunks, .retryDelay => true
  | .transferringChunks, .waitO => true
  | .complete, .none => true
  | .aborted, .none => true
  | _, _ => false

/-- The OUTCOME each STATE goes with (R32): NONE before the session is created, IN_PROGRESS during it. -/
def outcomeOf : FsmState → SessionOutcome
  | .idle => .none
  | .awaitingLinkReady => .none
  | .sendingHandshake => .none
  | .transferringChunks => .inProgress
  | .complete => .complete
  | .aborted => .aborted

/-- No session has been created since reset or CLEAR, and none has aborted. -/
def beforeSession : FsmState → Bool
  | .idle => true
  | .awaitingLinkReady => true
  | .sendingHandshake => true
  | .transferringChunks => false
  | .complete => false
  | .aborted => false

/-- The session counters by position (R33, R34, R45): zero before the session; during it CHUNK_IDX below N(IMG_LEN) and
RETRY_CNT below CFG_MAX_RETRIES; in WAIT_O every chunk accepted; after O the last chunk's count. -/
structure CountersLegal (s : State) : Prop where
  before : beforeSession s.state = true → s.chunkIdx = 0 ∧ s.retryCnt = 0
  chunk : s.state = .transferringChunks → s.phase ≠ .waitO →
    s.chunkIdx.toNat < imageChunks s ∧ s.retryCnt < s.cfgMaxRetries
  accepted : s.state = .transferringChunks → s.phase = .waitO →
    s.chunkIdx.toNat = imageChunks s ∧ s.retryCnt = 0
  complete : s.state = .complete → s.retryCnt = 0

/-- The error registers (R35): a cause and the chunk of the abort in Aborted, zero in every other state. -/
structure ErrorsLegal (s : State) : Prop where
  aborted : s.state = .aborted → s.errCause ≠ .none ∧ s.errChunk = s.chunkIdx
  otherwise : s.state ≠ .aborted → s.errCause = .none ∧ s.errChunk = 0

/-- The memories in canonical form, within their sizes (R60). -/
structure MemoriesLegal (s : State) : Prop where
  cb : s.cb.wf Config.chunkSize
  fb : s.fb.wf Config.frameSize
  img : s.img.wf Config.imageSize

/-- The invariant of the machine: a legal position (R31), the outcome that goes with it (R32), legal counters and error
registers, CFG_MAX_RETRIES at least 1 (R38), CB_LEN at most 256 (R23), memories in canonical form. -/
structure Inv (s : State) : Prop where
  position : legalPosition s.state s.phase = true
  outcome : s.outcome = outcomeOf s.state
  counters : CountersLegal s
  errors : ErrorsLegal s
  maxRetries : s.cfgMaxRetries ≠ 0
  cbLen : s.cbLen.toNat ≤ Config.chunkSize
  memories : MemoriesLegal s

/-- The FSM is the agent that moves next, and `s0` is the state it moves from: no input is left, or the oldest one is the
FSM's turn. -/
def FsmMoves (s s0 : State) : Prop :=
  (s.inputs = [] ∧ s0 = s) ∨ ∃ rest, s.inputs = .turn :: rest ∧ s0 = { s with inputs := rest }

/-- The environment does not let the next link access fail (R202). -/
def LinkWorks (s : State) : Prop := s.answer = .ok ∨ s.answer = .timedOut

/-- The bytes a wait phase waits for (R100). -/
def awaited : Phase → List Byte
  | .waitK => [Config.codeByte .k]
  | .waitT => [Config.codeByte .t]
  | .waitResp => [Config.codeByte .c, Config.codeByte .e]
  | .waitO => [Config.codeByte .o]
  | .none => []
  | .sendP => []
  | .sendR => []
  | .sendFrame => []
  | .retryDelay => []

/-- `t` follows `s` by steps of one session: BUSY = 1 in every state but possibly the last, so that neither CLEAR nor
reset stands between them. -/
inductive SessionRun (s : State) : State → Prop where
  | start : SessionRun s s
  | next {t u : State} : SessionRun s t → busy t = true → step t = .next u → SessionRun s u

/-- The frame of chunk `k` of a state's image, as sent (R144). -/
def frameOf (s : State) (k : Nat) : Option (List Byte) :=
  (chunkOf s.img s.imgLen.toNat k).map encodeFrame

/-- `s` with the two sticky flags replaced. -/
def withFlags (s : State) (protoViol cmdErr : Bool) : State := { s with protoViol := protoViol, cmdErr := cmdErr }

end Sys2Proof.Safety
end

