-- ==== Sys2Proof/Certificates/Slice0/Obligations.lean ====
section
/-! DEFINITION. The statements for the provers, each from a numbered rule of the spec. -/

open Sys2Proof Sys2Proof.Machine Sys2Proof.Safety

/- ## Encodings -/

/-- Decoding the encoding of a well-formed instruction gives the instruction back, every operand at every value (R92, R95,
R105, R106). -/
def Obligations.EncodeThenDecodeGivesInstruction : Prop :=
  ∀ i : Instr, i.WellFormed = true → decode (encode i) = .ok i

/-- A received byte is a code when it equals the code's byte value in all 8 bits, and only then (R93). -/
def Obligations.ControlCodeIsExactByteMatch : Prop :=
  ∀ (b : Byte) (i : Instr), decode (.ctrl8 b) = .ok i ↔ i.format = .ctrl8 ∧ encode i = .ctrl8 b

/-- A frame has one meaning and a meaning has one frame: what the decoder reads from 259 bytes encodes to those bytes, and
it refuses every other length and every flag byte but 0 and 1 (R95, R96). -/
def Obligations.FrameDecodingIsExact : Prop :=
  (∀ (bytes : List Byte) (i : Instr), decode (.frame259 bytes) = .ok i →
    encode i = .frame259 bytes ∧ bytes.length = 259) ∧
  (∀ bytes : List Byte, bytes.length ≠ 259 → decode (.frame259 bytes) = .error (.frameLength bytes.length)) ∧
  (∀ (p : List Byte) (f lo hi : Byte), p.length = 256 → f ≠ 0x00 → f ≠ 0x01 →
    decode (.frame259 (p ++ [f, lo, hi])) = .error (.frameFlag f))

/-- Bits [7:4] and [31:16] of a CMD word are ignored: the command depends on OP = CMD[3:0] and ARG = CMD[15:8] alone
(R105). -/
def Obligations.CommandIgnoresUnusedBits : Prop :=
  ∀ v w : Word, (∀ i, i < 4 → v.getLsbD i = w.getLsbD i) → (∀ i, 8 ≤ i → i < 16 → v.getLsbD i = w.getLsbD i) →
    decode (.cmd32 v) = decode (.cmd32 w)

/-- Words written out from the tables of R92, R95 and R106 decode to the instructions they stand for. -/
def Obligations.TableWordsDecode : Prop :=
  decodeTableWord 8 0x50 = some .ctrlP ∧ decodeTableWord 8 0x4B = some .ctrlK ∧
  decodeTableWord 8 0x52 = some .ctrlR ∧ decodeTableWord 8 0x54 = some .ctrlT ∧
  decodeTableWord 8 0x43 = some .ctrlC ∧ decodeTableWord 8 0x45 = some .ctrlE ∧
  decodeTableWord 8 0x4F = some .ctrlO ∧ decodeTableWord 8 0x46 = some .ctrlF ∧
  decodeTableWord 32 0x00003102 = some (.crcByte 0x31) ∧ decodeTableWord 32 0x00000008 = some .start ∧
  decodeTableWord 32 0x0000000A = some .cancel ∧ decodeTableWord 32 0x0000000F = some .reserved15 ∧
  decode (.ctrl8 0x6B) = .error (.notAControlCode 0x6B)

/- ## The checksum unit -/

/-- `crc_byte` XORs the byte into the low byte once and then does eight `crc_bit` steps (R121), each of which tests bit 0
before the shift (R122). -/
def Obligations.CrcByteIsEightBitSteps : Prop :=
  (∀ (a : U16) (b : Byte), crcByte a b = crcBit^[8] (a ^^^ b.setWidth 16)) ∧
  (∀ a : U16, a.getLsbD 0 = true → crcBit a = (a >>> 1) ^^^ 0xA001) ∧
  (∀ a : U16, a.getLsbD 0 = false → crcBit a = a >>> 1)

/-- The checksum starts from 0xFFFF, which is the checksum of the empty sequence (R123 (d)), and takes the bytes in index
order with nothing done to the result (R120); the checksum of a concatenation continues from the checksum of the first
part (R127). -/
def Obligations.ChecksumContinuesOverConcatenation : Prop :=
  checksum [] = 0xFFFF ∧ (∀ s : List Byte, checksum s = s.foldl crcByte 0xFFFF) ∧
  ∀ s t : List Byte, checksum (s ++ t) = t.foldl crcByte (checksum s)

/-- Appending a checksum, low byte first, gives checksum 0x0000 (R130). -/
def Obligations.ChecksumResidueIsZero : Prop :=
  ∀ s : List Byte, checksum (s ++ [lowByte (checksum s), highByte (checksum s)]) = 0x0000

/-- The table identity: `crc_byte(a, b) = (a >> 8) ^ T[(a ^ b)[7:0]]` with `T[x] = crc_byte(0, x)` (R128). -/
def Obligations.CrcByteTableIdentity : Prop :=
  ∀ (a : U16) (b : Byte), crcByte a b = (a >>> 8) ^^^ crcByte 0 (lowByte (a ^^^ b.setWidth 16))

/- ## The frame codec -/

/-- `N(L)` is the ceiling of `L / 256` (R140), and for a 32-bit length it is at most 2^24 (R33). -/
def Obligations.ChunkCountIsCeiling : Prop :=
  ∀ L : Nat, L ≤ 256 * chunkCount L ∧ 256 * chunkCount L < L + 256 ∧ (L < 2 ^ 32 → chunkCount L ≤ 2 ^ 24)

/-- The chunks of an image, each of 1 to 256 bytes, concatenated in order, are the image (R141). -/
def Obligations.ChunksConcatenateToImage : Prop :=
  ∀ (img : Memory) (L : Nat) (bytes : List Byte), img.wf Config.imageSize → img.readBytes 0 L = some bytes →
    ∃ cs : List (List Byte), cs.length = chunkCount L ∧
      (∀ k, k < chunkCount L → chunkOf img L k = cs[k]?) ∧
      (∀ c ∈ cs, 1 ≤ c.length ∧ c.length ≤ 256) ∧ cs.flatten = bytes

/-- The layout of an encoded chunk: always 259 bytes (R145); the chunk's bytes, then 0xFF (R98); flag 1 exactly when the
chunk has 256 bytes (R96); the checksum of the 256 payload bytes, low byte first (R97). The payload is `pad(c)` (R142). -/
def Obligations.EncodedFrameLayout : Prop :=
  ∀ c : List Byte, c.length ≤ 256 →
    (encodeFrame c).length = 259 ∧
    (∀ i, i < c.length → (encodeFrame c)[i]? = (c)[i]?) ∧
    (∀ i, c.length ≤ i → i < 256 → (encodeFrame c)[i]? = some 0xFF) ∧
    (encodeFrame c)[256]? = some (if c.length = 256 then 0x01 else 0x00) ∧
    (encodeFrame c)[257]? = some ((checksum ((encodeFrame c).take 256)).extractLsb' 0 8) ∧
    (encodeFrame c)[258]? = some ((checksum ((encodeFrame c).take 256)).extractLsb' 8 8) ∧
    (encodeFrame c).take 256 = padChunk c

/-- The round trip of the codec (R151). -/
def Obligations.CheckOfEncodeSucceeds : Prop :=
  ∀ c : List Byte, c.length ≤ 256 →
    (checkFrame (encodeFrame c)).ok = true ∧ (checkFrame (encodeFrame c)).flagLegal = true ∧
    (checkFrame (encodeFrame c)).flag = flagByte (flagOf c) ∧
    (checkFrame (encodeFrame c)).payload = padChunk c ∧
    (checkFrame (encodeFrame c)).crcRx = checksum (padChunk c) ∧
    (checkFrame (encodeFrame c)).crcCalc = checksum (padChunk c)

/-- The flag byte is outside the checksum: whatever it is replaced by, the frame still checks, and only the report of the
flag changes (R149, R263). -/
def Obligations.FlagByteIsNotProtected : Prop :=
  ∀ (c : List Byte) (f : Byte), c.length ≤ 256 →
    (checkFrame ((encodeFrame c).set 256 f)).ok = true ∧ (checkFrame ((encodeFrame c).set 256 f)).flag = f ∧
    ((checkFrame ((encodeFrame c).set 256 f)).flagLegal = true ↔ f = 0x00 ∨ f = 0x01)

/- ## The commands -/

/-- NOP, `OP` = 0, changes nothing and raises nothing (R107). -/
def Obligations.NopChangesNothing : Prop :=
  (∀ w : Word, w.toNat % 16 = 0 → decode (.cmd32 w) = .ok .nop) ∧ ∀ s : State, exec .nop s = .next s

/-- CRC_INIT, `OP` = 1, sets CRC_ACC to 0xFFFF and changes nothing else; while BUSY it is refused (R124). -/
def Obligations.CrcInitSetsAccumulator : Prop :=
  (∀ w : Word, w.toNat % 16 = 1 → decode (.cmd32 w) = .ok .crcInit) ∧
  ∀ s : State,
    (busy s = false → exec .crcInit s = .next { s with crcAcc := 0xFFFF }) ∧
    (busy s = true → exec .crcInit s = .next { s with cmdErr := true })

/-- CRC_BYTE, `OP` = 2, continues the checksum from CRC_ACC with its operand, CMD[15:8], and changes nothing else; while
BUSY it is refused (R125). -/
def Obligations.CrcByteContinuesAccumulator : Prop :=
  (∀ w : Word, w.toNat % 16 = 2 → decode (.cmd32 w) = .ok (.crcByte (BitVec.ofNat 8 (w.toNat / 256)))) ∧
  ∀ (s : State) (b : Byte),
    (busy s = false → exec (.crcByte b) s = .next { s with crcAcc := crcByte s.crcAcc b }) ∧
    (busy s = true → exec (.crcByte b) s = .next { s with cmdErr := true })

/-- CRC_BLOCK, `OP` = 3, leaves the checksum of CB[0..CB_LEN) in CRC_ACC, whatever CRC_ACC held, and changes nothing else; while BUSY
it is refused (R126). -/
def Obligations.CrcBlockChecksumsChunkBuffer : Prop :=
  (∀ w : Word, w.toNat % 16 = 3 → decode (.cmd32 w) = .ok .crcBlock) ∧
  ∀ (s : State) (c : List Byte), s.cb.readBytes 0 s.cbLen.toNat = some c →
    (busy s = false → exec .crcBlock s = .next { s with crcAcc := checksum c }) ∧
    (busy s = true → exec .crcBlock s = .next { s with cmdErr := true })

/-- ENCODE, `OP` = 4, writes the frame of CB[0..CB_LEN) to FB[0..259) and its checksum to CRC_ACC; no other byte of FB, no
byte of CB or of the image and no other field changes; while BUSY it is refused (R148). -/
def Obligations.EncodeBuildsFrame : Prop :=
  (∀ w : Word, w.toNat % 16 = 4 → decode (.cmd32 w) = .ok .encode) ∧
  (∀ (s : State) (c : List Byte), busy s = false → s.cbLen.toNat ≤ 256 → s.cb.readBytes 0 s.cbLen.toNat = some c →
    ∃ t, exec .encode s = .next t ∧ t.fb.readBytes 0 259 = some (encodeFrame c) ∧
      t.crcAcc = checksum (padChunk c) ∧ (∀ a, 259 ≤ a → t.fb.read a = s.fb.read a) ∧
      (∀ a, t.cb.read a = s.cb.read a) ∧ (∀ a, t.img.read a = s.img.read a) ∧
      { t with fb := s.fb, crcAcc := s.crcAcc } = s) ∧
  (∀ s : State, busy s = true → exec .encode s = .next { s with cmdErr := true })

/-- CHECK, `OP` = 5, records the check of FB[0..259) in the four fields of CHK and in CRC_ACC, and changes nothing else;
while BUSY it is refused (R150, R25). -/
def Obligations.CheckRecordsResult : Prop :=
  (∀ w : Word, w.toNat % 16 = 5 → decode (.cmd32 w) = .ok .check) ∧
  (∀ (s : State) (p : List Byte) (f lo hi : Byte), busy s = false → p.length = 256 →
    s.fb.readBytes 0 259 = some (p ++ [f, lo, hi]) →
    exec .check s = .next { s with
      chkOk := decide (checksum p = u16OfBytes lo hi), chkFlagLegal := decide (f = 0x00 ∨ f = 0x01)
      chkFlag := f, chkCrcRx := u16OfBytes lo hi, crcAcc := checksum p }) ∧
  (∀ s : State, busy s = true → exec .check s = .next { s with cmdErr := true })

/-- A byte that a command needs and nothing has written since reset has no value: CRC_BLOCK and ENCODE below CB_LEN, CHECK
in FB, and a caller's read of it, stop (R45; U4). -/
def Obligations.UnwrittenByteStops : Prop :=
  ∀ s : State, Inv s → busy s = false →
    (∀ i, i < s.cbLen.toNat → s.cb.read i = none →
      exec .crcBlock s = .fault .unwrittenByte ∧ exec .encode s = .fault .unwrittenByte) ∧
    (∀ i, i < 259 → s.fb.read i = none → exec .check s = .fault .unwrittenByte) ∧
    (∀ i, i < 256 → s.cb.read i = none → bufRead .cb i s = .fault .unwrittenByte) ∧
    (∀ i, i < 259 → s.fb.read i = none → bufRead .fb i s = .fault .unwrittenByte)

/-- START, `OP` = 8, in Idle goes to (AwaitingLinkReady, SEND_P), where BUSY = 1, and changes nothing else; in any other state it is
refused (R161). -/
def Obligations.StartFromIdle : Prop :=
  (∀ w : Word, w.toNat % 16 = 8 → decode (.cmd32 w) = .ok .start) ∧
  ∀ s : State,
    (s.state = .idle → exec .start s = .next { s with state := .awaitingLinkReady, phase := .sendP } ∧
      busy { s with state := .awaitingLinkReady, phase := .sendP } = true) ∧
    (s.state ≠ .idle → exec .start s = .next { s with cmdErr := true })

/-- CLEAR, `OP` = 9, goes to (Idle, NONE), zeroes the session and error registers and touches nothing else; while BUSY it
is refused (R180). -/
def Obligations.ClearReturnsToIdle : Prop :=
  (∀ w : Word, w.toNat % 16 = 9 → decode (.cmd32 w) = .ok .clear) ∧
  ∀ s : State,
    (busy s = false → exec .clear s = .next { s with
      state := .idle, phase := .none, outcome := .none, chunkIdx := 0, retryCnt := 0
      errCause := .none, errChunk := 0 }) ∧
    (busy s = true → exec .clear s = .next { s with cmdErr := true })

/-- CANCEL, `OP` = 10, while BUSY takes the abort entry with cause 5: the chunk index is recorded, CHUNK_IDX, RETRY_CNT
and everything else keep their values; when not BUSY it is refused (R181). -/
def Obligations.CancelAborts : Prop :=
  (∀ w : Word, w.toNat % 16 = 10 → decode (.cmd32 w) = .ok .cancel) ∧
  ∀ s : State,
    (busy s = true → exec .cancel s = .next { s with
      errCause := .cancelled, errChunk := s.chunkIdx, outcome := .aborted, state := .aborted, phase := .none }) ∧
    (busy s = false → exec .cancel s = .next { s with cmdErr := true })

/-- A reserved OP, and a command whose acceptance condition is false, set CMD_ERR and change nothing else (R108). -/
def Obligations.RefusedCommandsOnlySetCmdErr : Prop :=
  (∀ w : Word, w.toNat % 16 ∈ [6, 7, 11, 12, 13, 14, 15] →
    ∃ i ∈ [Instr.reserved6, .reserved7, .reserved11, .reserved12, .reserved13, .reserved14, .reserved15],
      decode (.cmd32 w) = .ok i) ∧
  ∀ s : State,
    (∀ i ∈ [Instr.reserved6, .reserved7, .reserved11, .reserved12, .reserved13, .reserved14, .reserved15],
      exec i s = .next { s with cmdErr := true }) ∧
    (busy s = true → ∀ b : Byte, ∀ i ∈ [Instr.crcInit, .crcByte b, .crcBlock, .encode, .check, .clear],
      exec i s = .next { s with cmdErr := true }) ∧
    (s.state ≠ .idle → exec .start s = .next { s with cmdErr := true }) ∧
    (busy s = false → exec .cancel s = .next { s with cmdErr := true })

/- ## The transitions of the state machine -/

/-- CTRL_P in SEND_P: `P` goes out and the FSM waits for `K`; when the send fails nothing goes out and the session aborts
with cause 1 (R162, R178). -/
def Obligations.SendPThenWaitForK : Prop :=
  ∀ s : State, s.state = .awaitingLinkReady → s.phase = .sendP →
    (LinkWorks s → exec .ctrlP s = .next { s with txh := s.txh ++ [0x50], answer := .ok, phase := .waitK }) ∧
    (∀ n, s.answer = .error n → exec .ctrlP s = .next { s with
      answer := .ok, errCause := .linkUnavailable, errChunk := s.chunkIdx, outcome := .aborted
      state := .aborted, phase := .none })

/-- CTRL_R in SEND_R: `R` goes out, the session is created, and the FSM waits for `T`, or for `O` when the image has no
chunk; when the send fails the session is not created (R165, R166, R167, R178). -/
def Obligations.SendRCreatesSession : Prop :=
  ∀ s : State, s.state = .sendingHandshake → s.phase = .sendR →
    (LinkWorks s → exec .ctrlR s = .next { s with
      txh := s.txh ++ [0x52], answer := .ok, state := .transferringChunks
      phase := if s.imgLen = 0 then .waitO else .waitT
      chunkIdx := 0, retryCnt := 0, outcome := .inProgress }) ∧
    (∀ n, s.answer = .error n → exec .ctrlR s = .next { s with
      answer := .ok, errCause := .linkUnavailable, errChunk := s.chunkIdx, outcome := .aborted
      state := .aborted, phase := .none })

/-- CTRL_K in WAIT_K goes to (SendingHandshake, SEND_R), CTRL_T in WAIT_T to SEND_FRAME, CTRL_O in WAIT_O to Complete, and
nothing else changes (R163, R169, R175). -/
def Obligations.AwaitedCodeMovesOn : Prop :=
  ∀ s : State,
    (s.state = .awaitingLinkReady → s.phase = .waitK →
      exec .ctrlK s = .next { s with state := .sendingHandshake, phase := .sendR }) ∧
    (s.state = .transferringChunks → s.phase = .waitT → exec .ctrlT s = .next { s with phase := .sendFrame }) ∧
    (s.state = .transferringChunks → s.phase = .waitO →
      exec .ctrlO s = .next { s with state := .complete, phase := .none, outcome := .complete })

/-- In WAIT_K, WAIT_T and WAIT_O every control code that is not awaited is discarded and leaves no trace (R100); in a PHASE
that reads nothing no received code has an effect (R100). -/
def Obligations.OtherCodesAreDiscarded : Prop :=
  ∀ s : State,
    (s.state = .awaitingLinkReady → s.phase = .waitK →
      ∀ i ∈ [Instr.ctrlP, .ctrlR, .ctrlT, .ctrlC, .ctrlE, .ctrlO, .ctrlF], exec i s = .next s) ∧
    (s.state = .transferringChunks → s.phase = .waitT →
      ∀ i ∈ [Instr.ctrlP, .ctrlK, .ctrlR, .ctrlC, .ctrlE, .ctrlO, .ctrlF], exec i s = .next s) ∧
    (s.state = .transferringChunks → s.phase = .waitO →
      ∀ i ∈ [Instr.ctrlP, .ctrlK, .ctrlR, .ctrlT, .ctrlC, .ctrlE, .ctrlF], exec i s = .next s) ∧
    (reads s = false → ∀ i ∈ [Instr.ctrlK, .ctrlT, .ctrlC, .ctrlE, .ctrlO, .ctrlF], exec i s = .next s)

/-- Accepted: CTRL_C in WAIT_RESP increments CHUNK_IDX, zeroes RETRY_CNT and goes to WAIT_O after the last chunk, to WAIT_T
otherwise (R171). -/
def Obligations.AcceptedAdvancesChunk : Prop :=
  ∀ s : State, s.state = .transferringChunks → s.phase = .waitResp →
    exec .ctrlC s = .next { s with
      chunkIdx := s.chunkIdx + 1, retryCnt := 0
      phase := if (s.chunkIdx + 1).toNat = chunkCount s.imgLen.toNat then .waitO else .waitT }

/-- Rejected: CTRL_E in WAIT_RESP increments RETRY_CNT; at CFG_MAX_RETRIES the session aborts with cause 2 and the failing
chunk's index, below it the pause begins with its timer at 0; CHUNK_IDX does not change (R172, R222). -/
def Obligations.RejectedCountsThenAborts : Prop :=
  ∀ s : State, s.state = .transferringChunks → s.phase = .waitResp →
    (s.cfgMaxRetries ≤ s.retryCnt + 1 → exec .ctrlE s = .next { s with
      retryCnt := s.retryCnt + 1, errCause := .chunkRejectedExceededRetries, errChunk := s.chunkIdx
      outcome := .aborted, state := .aborted, phase := .none }) ∧
    (s.retryCnt + 1 < s.cfgMaxRetries → exec .ctrlE s = .next { s with
      retryCnt := s.retryCnt + 1, phase := .retryDelay, delayT := 0 })

/-- A control code other than `C` and `E` in WAIT_RESP, by RESP_OTHER_POLICY: REJECT sets PROTO_VIOL and is a rejection,
DISCARD drops it, FATAL sets PROTO_VIOL and aborts with cause 3 and RETRY_CNT unchanged (R173). -/
def Obligations.OtherAnswerFollowsPolicy : Prop :=
  ∀ s : State, s.state = .transferringChunks → s.phase = .waitResp →
    ∀ i ∈ [Instr.ctrlP, .ctrlK, .ctrlR, .ctrlT, .ctrlO, .ctrlF],
      (s.params.respOther = .reject → s.cfgMaxRetries ≤ s.retryCnt + 1 → exec i s = .next { s with
        protoViol := true, retryCnt := s.retryCnt + 1, errCause := .chunkRejectedExceededRetries
        errChunk := s.chunkIdx, outcome := .aborted, state := .aborted, phase := .none }) ∧
      (s.params.respOther = .reject → s.retryCnt + 1 < s.cfgMaxRetries → exec i s = .next { s with
        protoViol := true, retryCnt := s.retryCnt + 1, phase := .retryDelay, delayT := 0 }) ∧
      (s.params.respOther = .discard → exec i s = .next s) ∧
      (s.params.respOther = .fatal → exec i s = .next { s with
        protoViol := true, errCause := .unexpectedControlCode, errChunk := s.chunkIdx
        outcome := .aborted, state := .aborted, phase := .none })

/-- DATA_FRAME in SEND_FRAME of a chunk `c`: CB[0..n) and CB_LEN hold the chunk, FB its frame, CRC_ACC the checksum of the
padded chunk, the 259 bytes go out and the FSM waits for the answer; no other byte and no other field changes (R168). -/
def Obligations.DataFrameBuildsAndSends : Prop :=
  ∀ (s : State) (c p : List Byte) (f : Bool) (k : U16), s.state = .transferringChunks → s.phase = .sendFrame →
    s.chunkIdx.toNat < chunkCount s.imgLen.toNat →
    chunkOf s.img s.imgLen.toNat s.chunkIdx.toNat = some c → LinkWorks s →
    ∃ t, exec (.dataFrame p f k) s = .next t ∧
      t.cb.readBytes 0 c.length = some c ∧ t.cbLen.toNat = c.length ∧
      t.fb.readBytes 0 259 = some (encodeFrame c) ∧ t.crcAcc = checksum (padChunk c) ∧
      t.txh = s.txh ++ encodeFrame c ∧ t.phase = .waitResp ∧ t.answer = .ok ∧
      (∀ a, c.length ≤ a → t.cb.read a = s.cb.read a) ∧ (∀ a, 259 ≤ a → t.fb.read a = s.fb.read a) ∧
      (∀ a, t.img.read a = s.img.read a) ∧
      { t with cb := s.cb, cbLen := s.cbLen, fb := s.fb, crcAcc := s.crcAcc, txh := s.txh, phase := s.phase,
               answer := s.answer } = s

/-- A failed frame send: some leading part of 0 to 258 bytes went out, CB, CB_LEN, FB and CRC_ACC are already overwritten as
by a send that works, and the session aborts with cause 1; no other byte and no other field changes (R168, R178, R201,
R230, R231). -/
def Obligations.FailedFrameSendAborts : Prop :=
  ∀ (s : State) (c p : List Byte) (f : Bool) (k : U16) (n : Nat), s.state = .transferringChunks →
    s.phase = .sendFrame → s.chunkIdx.toNat < chunkCount s.imgLen.toNat →
    chunkOf s.img s.imgLen.toNat s.chunkIdx.toNat = some c → s.answer = .error n →
    ∃ t, exec (.dataFrame p f k) s = .next t ∧
      t.cb.readBytes 0 c.length = some c ∧ t.cbLen.toNat = c.length ∧
      t.fb.readBytes 0 259 = some (encodeFrame c) ∧ t.crcAcc = checksum (padChunk c) ∧
      t.txh = s.txh ++ (encodeFrame c).take (min n 258) ∧ t.answer = .ok ∧
      t.errCause = .linkUnavailable ∧ t.errChunk = s.chunkIdx ∧
      t.outcome = .aborted ∧ t.state = .aborted ∧ t.phase = .none ∧
      (∀ a, c.length ≤ a → t.cb.read a = s.cb.read a) ∧ (∀ a, 259 ≤ a → t.fb.read a = s.fb.read a) ∧
      (∀ a, t.img.read a = s.img.read a) ∧
      { t with cb := s.cb, cbLen := s.cbLen, fb := s.fb, crcAcc := s.crcAcc, txh := s.txh, answer := s.answer,
               errCause := s.errCause, errChunk := s.errChunk, outcome := s.outcome, state := s.state,
               phase := s.phase } = s

/-- Outside SEND_FRAME no frame is sent (R72); in it a chunk past the end or a byte the caller did not place stops
(R141, R252; log entries 10 and 18). -/
def Obligations.DataFrameOnlyInSendFrame : Prop :=
  ∀ (s : State) (p : List Byte) (f : Bool) (k : U16),
    (¬ (s.state = .transferringChunks ∧ s.phase = .sendFrame) → exec (.dataFrame p f k) s = .next s) ∧
    (s.state = .transferringChunks → s.phase = .sendFrame → chunkCount s.imgLen.toNat ≤ s.chunkIdx.toNat →
      exec (.dataFrame p f k) s = .fault .noSuchChunk) ∧
    (s.state = .transferringChunks → s.phase = .sendFrame → s.chunkIdx.toNat < chunkCount s.imgLen.toNat →
      chunkOf s.img s.imgLen.toNat s.chunkIdx.toNat = none → exec (.dataFrame p f k) s = .fault .imageByteNotPlaced)

/- ## Steps -/

/-- A step runs the decoded instruction: a CMD word the caller writes, the control code at the head of RXQ in a PHASE that
reads (taken from the queue), and the code or frame a sending PHASE calls for. -/
def Obligations.StepRunsDecodedInstruction : Prop :=
  (∀ (s : State) (w : Word) (rest : List Input) (i : Instr), s.inputs = .regWrite 0 w :: rest →
    decode (.cmd32 w) = .ok i → step s = exec i { s with inputs := rest }) ∧
  (∀ (s s0 : State) (b : Byte) (q : List Byte) (i : Instr), FsmMoves s s0 → reads s0 = true → LinkWorks s0 →
    s0.rxq = b :: q → decode (.ctrl8 b) = .ok i → step s = exec i { s0 with rxq := q, answer := .ok }) ∧
  (∀ s s0 : State, FsmMoves s s0 → s0.state = .awaitingLinkReady → s0.phase = .sendP → step s = exec .ctrlP s0) ∧
  (∀ s s0 : State, FsmMoves s s0 → s0.state = .sendingHandshake → s0.phase = .sendR → step s = exec .ctrlR s0) ∧
  (∀ (s s0 : State) (c : List Byte) (i : Instr), FsmMoves s s0 → s0.state = .transferringChunks →
    s0.phase = .sendFrame → chunkOf s0.img s0.imgLen.toNat s0.chunkIdx.toNat = some c →
    decode (.frame259 (encodeFrame c)) = .ok i → step s = exec i s0)

/-- Every byte that is not awaited in the PHASE that consumes it, in the vocabulary or not, has the effect of `F`: an
"other byte", a code without a meaning (R100, R94). -/
def Obligations.EveryOtherByteActsLikeF : Prop :=
  ∀ (s s0 : State) (b : Byte) (q : List Byte), FsmMoves s s0 → reads s0 = true → LinkWorks s0 → s0.rxq = b :: q →
    b ∉ awaited s0.phase → step s = exec .ctrlF { s0 with rxq := q, answer := .ok }

/-- A wait that fails consumes no byte and aborts: a failed read with cause 1 (R178, R202); with timeouts enabled, a
timeout on an empty queue with cause 4; with timeouts disabled a timeout never occurs and the wait does not end (R179). -/
def Obligations.FailedWaitsAbort : Prop :=
  ∀ s s0 : State, FsmMoves s s0 → reads s0 = true →
    (∀ n, s0.answer = .error n → step s = .next { s0 with
      answer := .ok, errCause := .linkUnavailable, errChunk := s0.chunkIdx, outcome := .aborted
      state := .aborted, phase := .none }) ∧
    (s0.answer = .timedOut → s0.rxq = [] → s0.params.waitTimeout = true → step s = .next { s0 with
      answer := .ok, errCause := .waitTimeout, errChunk := s0.chunkIdx, outcome := .aborted
      state := .aborted, phase := .none }) ∧
    (s0.answer = .timedOut → s0.rxq = [] → s0.params.waitTimeout = false → step s = .next s0)

/-- A wait with RXQ empty and no error is blocked: the FSM changes nothing, however often it is its turn (R160, R183). -/
def Obligations.BlockedWaitChangesNothing : Prop :=
  ∀ (s : State) (n : Nat), s.inputs = [] → reads s = true → s.rxq = [] → s.answer = .ok →
    Host.Core.run Sys2Proof.core n s = .next s

/-- The end of the pause goes to WAIT_T when at least CFG_RETRY_DELAY_MS milliseconds have passed, sends nothing and reads
nothing (R174; that the turn is always enabled is the spec's advice to a model, DELAY_T's form is log entry 8). -/
def Obligations.PauseEndsInWaitT : Prop :=
  ∀ s s0 : State, FsmMoves s s0 → s0.state = .transferringChunks → s0.phase = .retryDelay →
    ∃ t, step s = .next t ∧ t.phase = .waitT ∧ s0.cfgRetryDelayMs.toNat ≤ t.delayT ∧
      { t with phase := s0.phase, delayT := s0.delayT } = s0

/- ## The caller's accesses -/

/-- What the writable registers store: CFG_MAX_RETRIES bits [7:0], 1 for 0 (R38); CB_LEN bits [8:0], 256 for 257 to 511
(R23); IMG_LEN the word (R37); CFG_RETRY_DELAY_MS bits [15:0] (R39). -/
def Obligations.RegisterWritesStore : Prop :=
  ∀ (s : State) (v : Word) (rest : List Input), busy s = false →
    (s.inputs = .regWrite 7 v :: rest → step s = .next { s with inputs := rest, imgLen := v }) ∧
    (s.inputs = .regWrite 8 v :: rest → step s = .next { s with
      inputs := rest, cfgMaxRetries := if v.toNat % 256 = 0 then 1 else BitVec.ofNat 8 v.toNat }) ∧
    (s.inputs = .regWrite 9 v :: rest → step s = .next { s with
      inputs := rest, cfgRetryDelayMs := BitVec.ofNat 16 v.toNat }) ∧
    (s.inputs = .regWrite 11 v :: rest → step s = .next { s with
      inputs := rest, cbLen := BitVec.ofNat 9 (min 256 (v.toNat % 512)) })

/-- While BUSY a caller write to IMG_LEN, CFG_MAX_RETRIES, CFG_RETRY_DELAY_MS, CB_LEN, or to any byte of CB or FB is
ignored and sets CMD_ERR (R41). -/
def Obligations.WritesAreFrozenWhileBusy : Prop :=
  ∀ (s : State) (rest : List Input), busy s = true →
    (∀ n ∈ [7#4, 8#4, 9#4, 11#4], ∀ v : Word, s.inputs = .regWrite n v :: rest →
      step s = .next { s with inputs := rest, cmdErr := true }) ∧
    (∀ (w : Window) (i : Nat) (b : Byte), s.inputs = .bufWrite w i b :: rest →
      step s = .next { s with inputs := rest, cmdErr := true })

/-- Writes of read-only and reserved registers are ignored without an error (R40). -/
def Obligations.ReadOnlyRegistersIgnoreWrites : Prop :=
  ∀ (s : State) (v : Word) (rest : List Input), ∀ n ∈ [1#4, 3#4, 4#4, 5#4, 6#4, 10#4, 12#4, 13#4, 14#4, 15#4],
    s.inputs = .regWrite n v :: rest → step s = .next { s with inputs := rest }

/-- A write of FLAGS clears the bits written 1 and leaves the others; nothing else changes (R36, R40). -/
def Obligations.FlagsAreWriteOneToClear : Prop :=
  ∀ (s : State) (v : Word) (rest : List Input), s.inputs = .regWrite 2 v :: rest →
    step s = .next { s with
      inputs := rest
      protoViol := if v.getLsbD 0 then false else s.protoViol
      cmdErr := if v.getLsbD 1 then false else s.cmdErr }

/-- A register read changes nothing of the block, and shows the fields of the map at their bits, every other bit as 0 (R40,
R41): STATE, PHASE, OUTCOME and ERR_CAUSE by the numbers of R30, R31, R32 and R220, the derived bits by R42. -/
def Obligations.RegisterReadsShowTheMap : Prop :=
  ∀ (s : State) (n : BitVec 4) (rest : List Input), s.inputs = .regRead n :: rest →
    ∃ v : Word, step s = .next { s with inputs := rest, portData := v } ∧
      (n = 1 →
        (∀ p ∈ [(FsmState.idle, 0#3), (.awaitingLinkReady, 1#3), (.sendingHandshake, 2#3), (.transferringChunks, 3#3),
          (.complete, 4#3), (.aborted, 5#3)], s.state = p.1 → v.extractLsb' 0 3 = p.2) ∧
        (∀ p ∈ [(Phase.none, 0#4), (.sendP, 1#4), (.waitK, 2#4), (.sendR, 3#4), (.waitT, 4#4), (.sendFrame, 5#4),
          (.waitResp, 6#4), (.retryDelay, 7#4), (.waitO, 8#4)], s.phase = p.1 → v.extractLsb' 4 4 = p.2) ∧
        (∀ p ∈ [(SessionOutcome.none, 0#2), (.inProgress, 1#2), (.complete, 2#2), (.aborted, 3#2)],
          s.outcome = p.1 → v.extractLsb' 8 2 = p.2) ∧
        v.getLsbD 12 = decide (s.state = .awaitingLinkReady ∨ s.state = .sendingHandshake ∨
          s.state = .transferringChunks) ∧
        v.getLsbD 12 = busy s ∧ v.getLsbD 14 = decide (s.state = .complete) ∧
        v.getLsbD 15 = decide (s.state = .aborted) ∧
        v.getLsbD 3 = false ∧ v.extractLsb' 10 2 = 0 ∧ v.getLsbD 13 = false ∧ v.extractLsb' 16 16 = 0) ∧
      (n = 2 → v.getLsbD 0 = s.protoViol ∧ v.getLsbD 1 = s.cmdErr ∧ v.extractLsb' 2 30 = 0) ∧
      (n = 3 →
        (∀ p ∈ [(Cause.none, 0#4), (.linkUnavailable, 1#4), (.chunkRejectedExceededRetries, 2#4),
          (.unexpectedControlCode, 3#4), (.waitTimeout, 4#4), (.cancelled, 5#4)],
          s.errCause = p.1 → v.extractLsb' 0 4 = p.2) ∧ v.extractLsb' 4 28 = 0) ∧
      (n = 4 → v = s.errChunk) ∧ (n = 5 → v = s.chunkIdx) ∧
      (n = 6 → v.toNat = s.retryCnt.toNat) ∧ (n = 7 → v = s.imgLen) ∧
      (n = 8 → v.toNat = s.cfgMaxRetries.toNat) ∧ (n = 9 → v.toNat = s.cfgRetryDelayMs.toNat) ∧
      (n = 10 → v.toNat = s.crcAcc.toNat) ∧ (n = 11 → v.toNat = s.cbLen.toNat) ∧
      (n = 12 → v.getLsbD 0 = s.chkOk ∧ v.getLsbD 1 = s.chkFlagLegal ∧ v.extractLsb' 2 6 = 0 ∧
        v.extractLsb' 8 8 = s.chkFlag ∧ v.extractLsb' 16 16 = s.chkCrcRx) ∧
      (n = 13 → v.toNat = chunkCount s.imgLen.toNat) ∧ (n = 0 ∨ n = 14 ∨ n = 15 → v = 0)

/-- The buffer windows, CB of 256 bytes and FB of 259: a byte written when not BUSY is the byte read, every other byte of both windows is as it was; an
index out of range ignores the write, reads 0 and sets CMD_ERR (R62; that a read does so too is log entry 17). -/
def Obligations.BufferWindowsMoveOneByte : Prop :=
  (windowSize .cb = 256 ∧ windowSize .fb = 259 ∧ ∀ s : State, windowMem .cb s = s.cb ∧ windowMem .fb s = s.fb) ∧
  ∀ (s : State) (w : Window) (i : Nat) (b : Byte) (rest : List Input),
    (busy s = false → i < windowSize w → s.inputs = .bufWrite w i b :: rest →
      ∃ t, step s = .next t ∧ (windowMem w t).read i = some b ∧
        (∀ (w' : Window) (a : Nat), (w', a) ≠ (w, i) → (windowMem w' t).read a = (windowMem w' s).read a) ∧
        { t with cb := s.cb, fb := s.fb } = { s with inputs := rest }) ∧
    (windowSize w ≤ i → s.inputs = .bufWrite w i b :: rest →
      step s = .next { s with inputs := rest, cmdErr := true }) ∧
    (i < windowSize w → (windowMem w s).read i = some b → s.inputs = .bufRead w i :: rest →
      step s = .next { s with inputs := rest, portData := b.setWidth 32 }) ∧
    (windowSize w ≤ i → s.inputs = .bufRead w i :: rest →
      step s = .next { s with inputs := rest, cmdErr := true, portData := 0 })

/- ## Reset -/

/-- The values R45 gives for reset, every byte of CB and FB unwritten. -/
def Obligations.ResetHoldsTheGivenValues : Prop :=
  State.reset.state = .idle ∧ State.reset.phase = .none ∧ State.reset.outcome = .none ∧
  busy State.reset = false ∧ done State.reset = false ∧ failed State.reset = false ∧
  State.reset.protoViol = false ∧ State.reset.cmdErr = false ∧
  State.reset.errCause = .none ∧ State.reset.errChunk = 0 ∧ State.reset.chunkIdx = 0 ∧ State.reset.retryCnt = 0 ∧
  State.reset.imgLen = 0 ∧ State.reset.cfgMaxRetries = 5 ∧ State.reset.cfgRetryDelayMs = 100 ∧
  State.reset.crcAcc = 0xFFFF ∧ State.reset.cbLen = 0 ∧ State.reset.chkOk = false ∧
  State.reset.chkFlagLegal = false ∧ State.reset.chkFlag = 0 ∧ State.reset.chkCrcRx = 0 ∧ State.reset.txh = [] ∧
  (∀ a, State.reset.cb.read a = none) ∧ (∀ a, State.reset.fb.read a = none)

/-- Reset in any state abandons the session: every register at its reset value, no cause recorded, RXQ kept, TX kept but
for a leading part of a frame that was being sent (R250, R251). How the input gives that part's length, and that the
image, the parameters, the other inputs, the answer and the port's data are kept, is the model's choice (log entry 11). -/
def Obligations.ResetAbandonsTheSession : Prop :=
  ∀ (s : State) (cut : Nat) (rest : List Input), s.inputs = .reset cut :: rest →
    ∃ out, step s = .next { State.reset with
        rxq := s.rxq, txh := s.txh ++ out, img := s.img, params := s.params
        inputs := rest, answer := s.answer, portData := s.portData } ∧
      (∀ c, s.state = .transferringChunks → s.phase = .sendFrame → s.chunkIdx.toNat < chunkCount s.imgLen.toNat →
        frameOf s s.chunkIdx.toNat = some c → out = c.take (min cut 258)) ∧
      (¬ (s.state = .transferringChunks ∧ s.phase = .sendFrame ∧ s.chunkIdx.toNat < chunkCount s.imgLen.toNat ∧
        frameOf s s.chunkIdx.toNat ≠ none) → out = [])

/-- The state after reset meets the invariant. -/
def Obligations.ResetMeetsInvariant : Prop := Inv State.reset

/- ## The whole machine -/

/-- Every step keeps the invariant: the position legal (R31), OUTCOME that of the position (R32), the counters within their
ranges (R33, R34), the error registers set in Aborted only (R35), CFG_MAX_RETRIES at least 1 (R38), CB_LEN at most 256
(R23), and the memories in canonical form. -/
def Obligations.StepKeepsInvariant : Prop :=
  ∀ s t : State, Inv s → step s = .next t → Inv t

/-- What the block puts on the link, in every step: nothing, `P` in SEND_P, `R` in SEND_R, or a leading part (all of it,
when the send works) of the frame of the current chunk in SEND_FRAME. It never sends `F` (R162, R165, R168, R94, R63). -/
def Obligations.OnlySendPhasesTransmit : Prop :=
  ∀ s t : State, step s = .next t → ∃ out, t.txh = s.txh ++ out ∧
    (out = [] ∨
     (s.state = .awaitingLinkReady ∧ s.phase = .sendP ∧ out = [Config.codeByte .p]) ∨
     (s.state = .sendingHandshake ∧ s.phase = .sendR ∧ out = [Config.codeByte .r]) ∨
     (s.state = .transferringChunks ∧ s.phase = .sendFrame ∧
       ∃ f, frameOf s s.chunkIdx.toNat = some f ∧ ∃ j, out = f.take j))

/-- Nothing is ever flushed and nothing is lost: a byte that arrives goes to the end of RXQ in every state (R64), a turn in
a PHASE that reads takes the head when the link works and there is one (R64, R202), and a step that does neither leaves
RXQ as it is (R205). -/
def Obligations.ReceiveQueueIsNeverFlushed : Prop :=
  (∀ (s : State) (b : Byte) (rest : List Input), s.inputs = .rx b :: rest →
    step s = .next { s with inputs := rest, rxq := s.rxq ++ [b] }) ∧
  (∀ (s s0 : State) (b : Byte) (q : List Byte), FsmMoves s s0 → reads s0 = true → LinkWorks s0 → s0.rxq = b :: q →
    ∃ t, step s = .next t ∧ t.rxq = q) ∧
  ∀ s t : State, step s = .next t →
    t.rxq = s.rxq ∨ (∃ b rest, s.inputs = .rx b :: rest ∧ t.rxq = s.rxq ++ [b]) ∨
    (∃ s0 b, FsmMoves s s0 ∧ reads s0 = true ∧ LinkWorks s0 ∧ s.rxq = b :: t.rxq)

/-- Complete is entered only from WAIT_O by consuming `O`, every chunk having been Accepted; BUSY falls and the session
registers keep their values (R176). -/
def Obligations.CompleteOnlyByO : Prop :=
  ∀ s t : State, Inv s → step s = .next t → s.state ≠ .complete → t.state = .complete →
    s.state = .transferringChunks ∧ s.phase = .waitO ∧ s.rxq = Config.codeByte .o :: t.rxq ∧
    s.chunkIdx.toNat = chunkCount s.imgLen.toNat ∧ busy t = false ∧
    t.chunkIdx = s.chunkIdx ∧ t.retryCnt = s.retryCnt ∧ t.txh = s.txh

/-- In Complete and Aborted the block does no link access, and only CLEAR or reset leaves them (R177). -/
def Obligations.TerminalStatesDoNoLinkAccess : Prop :=
  ∀ s t : State, Inv s → (s.state = .complete ∨ s.state = .aborted) → step s = .next t →
    t.txh = s.txh ∧ (t.rxq = s.rxq ∨ ∃ b rest, s.inputs = .rx b :: rest ∧ t.rxq = s.rxq ++ [b]) ∧
    ((t.state = s.state ∧ t.phase = s.phase) ∨
     (∃ w rest, s.inputs = .regWrite 0 w :: rest ∧ decode (.cmd32 w) = .ok .clear ∧ t.state = .idle) ∨
     (∃ cut rest, s.inputs = .reset cut :: rest ∧ t.state = .idle))

/-- The first abort wins: while Aborted lasts, no step changes ERR_CAUSE or ERR_CHUNK (R232 (c), R35). -/
def Obligations.FirstAbortWins : Prop :=
  ∀ s t : State, Inv s → s.state = .aborted → step s = .next t → t.state = .aborted →
    t.errCause = s.errCause ∧ t.errChunk = s.errChunk

/-- An abort is entered only from a busy state, and by one step; it records CHUNK_IDX, keeps CHUNK_IDX and lets BUSY fall
and FAILED rise (R230). -/
def Obligations.AbortEntryRecordsAndReleases : Prop :=
  ∀ s t : State, Inv s → step s = .next t → s.state ≠ .aborted → t.state = .aborted →
    busy s = true ∧ busy t = false ∧ failed t = true ∧ t.phase = .none ∧ t.outcome = .aborted ∧
    t.errCause ≠ .none ∧ t.errChunk = s.chunkIdx ∧ t.chunkIdx = s.chunkIdx ∧
    (t.errCause = .chunkRejectedExceededRetries → t.retryCnt = t.cfgMaxRetries) ∧
    (t.errCause ≠ .chunkRejectedExceededRetries → t.retryCnt = s.retryCnt)

/-- PROTO_VIOL and CMD_ERR change no behaviour: from two states that differ in the flags alone, a step stops for the same
reason or answers states that differ in the flags alone, and, when the step is a read of FLAGS, in the data read (R36,
R40). A flag after the step is what it was before, or what it is in the other run, whatever the other flag is. -/
def Obligations.FlagsChangeNoBehaviour : Prop :=
  ∀ (s : State) (p c : Bool),
    (∀ t, step s = .next t → ∃ p' c' d, step (withFlags s p c) = .next { withFlags t p' c' with portData := d } ∧
      (p' = p ∨ p' = t.protoViol) ∧ (c' = c ∨ c' = t.cmdErr) ∧
      ((∀ rest, s.inputs ≠ .regRead 2 :: rest) → d = t.portData)) ∧
    (∀ e, step s = .fault e → step (withFlags s p c) = .fault e) ∧
    (∀ e, step s = .refused e → step (withFlags s p c) = .refused e)

/-- While BUSY lasts the session's inputs are frozen: IMG_LEN, the configuration and every byte of the image are as they
were, so a rebuilt frame is byte-identical to the first (R41, R61, R75); and no step, BUSY or not, changes the parameters
of the step relation (R44). -/
def Obligations.SessionInputsStayFixed : Prop :=
  (∀ s t : State, Inv s → busy s = true → step s = .next t → busy t = true →
    t.imgLen = s.imgLen ∧ t.cfgMaxRetries = s.cfgMaxRetries ∧ t.cfgRetryDelayMs = s.cfgRetryDelayMs ∧
    (∀ a, t.img.read a = s.img.read a) ∧ (∀ k, frameOf t k = frameOf s k)) ∧
  (∀ s t : State, step s = .next t → t.params = s.params)

/-- The machine stops only where the spec gives no result: every step from a state that meets the invariant answers a next
state, unless it needs an unwritten byte or an image byte that was not placed, or a byte of the image store would change in
a session (at or above IMG_LEN, where the spec is silent, that stop is the model's choice, log entry 10). -/
def Obligations.StopsOnlyWhereNoResultIsDefined : Prop :=
  ∀ s : State, Inv s →
    (∃ t, step s = .next t) ∨
    (step s = .fault .unwrittenByte ∧ busy s = false ∧ ∃ w rest, s.inputs = .regWrite 0 w :: rest ∧
      (((decode (.cmd32 w) = .ok .crcBlock ∨ decode (.cmd32 w) = .ok .encode) ∧
          ∃ j, j < s.cbLen.toNat ∧ s.cb.read j = none) ∨
       (decode (.cmd32 w) = .ok .check ∧ ∃ j, j < 259 ∧ s.fb.read j = none))) ∨
    (step s = .fault .unwrittenByte ∧ ∃ w j rest, s.inputs = .bufRead w j :: rest ∧ j < windowSize w ∧
      (windowMem w s).read j = none) ∨
    (step s = .fault .imageByteNotPlaced ∧ (∃ s0, FsmMoves s s0) ∧ s.state = .transferringChunks ∧
      s.phase = .sendFrame ∧ frameOf s s.chunkIdx.toNat = none) ∨
    (step s = .refused .imageChangedDuringSession ∧ busy s = true ∧
      ∃ a b rest, s.inputs = .imgPlace a b :: rest ∧ s.img.read a.toNat ≠ some b)

/-- The transmit history of a session that reaches Complete: since START exactly `P`, `R`, and each chunk's frame in order,
each sent at least once and at most CFG_MAX_RETRIES times (R182), for every run, every target and every policy. -/
def Obligations.CompletedSessionSentEveryFrame : Prop :=
  ∀ s t : State, Inv s → s.state = .awaitingLinkReady → s.phase = .sendP → SessionRun s t → t.state = .complete →
    ∃ (attempts : List Nat) (frames : List (List Byte)),
      frames.length = chunkCount s.imgLen.toNat ∧ attempts.length = chunkCount s.imgLen.toNat ∧
      (∀ k, k < chunkCount s.imgLen.toNat → frameOf s k = frames[k]?) ∧
      (∀ a ∈ attempts, 1 ≤ a ∧ a ≤ s.cfgMaxRetries.toNat) ∧
      t.txh = s.txh ++ [Config.codeByte .p] ++ [Config.codeByte .r] ++
        (List.zipWith (fun a f => (List.replicate a f).flatten) attempts frames).flatten
end

