-- ==== Sys2Proof/Laws/Memory.lean ====
section
/-! SUPPORT. The laws of byte memory: a read after a write, that a write leaves every other byte alone, that every write
keeps the canonical form, and that reading a block is reading each of its bytes. -/

namespace Sys2Proof.Machine

@[simp] theorem Memory.read_nil (a : Nat) : Memory.read [] a = none := rfl

theorem Memory.read_cons (c : Host.Cell) (m : Memory) (a : Nat) :
    Memory.read (c :: m) a = if c.1 = a then some c.2 else Memory.read m a := by
  by_cases h : c.1 = a <;> simp [Memory.read, h]

theorem Memory.read_append (m n : Memory) (a : Nat) :
    Memory.read (m ++ n) a = (Memory.read m a).or (Memory.read n a) := by
  induction m with
  | nil => simp
  | cons c m ih => rw [List.cons_append, Memory.read_cons, Memory.read_cons, ih]; split <;> simp

theorem Memory.read_filter (p : Nat → Bool) (m : Memory) (a : Nat) :
    Memory.read (m.filter fun c => p c.1) a = if p a then Memory.read m a else none := by
  induction m with
  | nil => simp
  | cons c m ih =>
    by_cases hp : p c.1 = true
    · rw [List.filter_cons_of_pos (by simpa using hp), Memory.read_cons, Memory.read_cons, ih]
      by_cases hc : c.1 = a
      · subst hc; simp [hp]
      · simp [hc]
    · rw [List.filter_cons_of_neg (by simpa using hp), ih, Memory.read_cons]
      by_cases hc : c.1 = a
      · subst hc; simp [hp]
      · simp [hc]

theorem Memory.read_cells (a : Nat) (bs : List Byte) (x : Nat) :
    Memory.read (Memory.cells a bs) x = if a ≤ x then bs[x - a]? else none := by
  induction bs generalizing a with
  | nil => simp [Memory.cells]
  | cons b bs ih =>
    rw [Memory.cells, Memory.read_cons, ih]
    by_cases h : a = x
    · subst h; simp
    · by_cases h' : a ≤ x
      · have : x - a = (x - (a + 1)) + 1 := by omega
        rw [if_neg h, if_pos (by omega), if_pos h', this, List.getElem?_cons_succ]
      · rw [if_neg h, if_neg (by omega), if_neg h']

/-- A read after a write: the bytes written where they were written, every other byte as before. -/
theorem Memory.read_writeBytes (m : Memory) (a : Nat) (bs : List Byte) (x : Nat) :
    (m.writeBytes a bs).read x = if a ≤ x ∧ x < a + bs.length then bs[x - a]? else m.read x := by
  rw [Memory.writeBytes, Memory.read_append, Memory.read_append, Memory.read_cells,
    Memory.read_filter (fun y => decide (y < a)), Memory.read_filter (fun y => decide (a + bs.length ≤ y))]
  by_cases h1 : x < a
  · have : ¬ a ≤ x := by omega
    have h3 : ¬ a + bs.length ≤ x := by omega
    simp [h1, this, h3]
  · by_cases h2 : x < a + bs.length
    · have h3 : ¬ a + bs.length ≤ x := by omega
      have h4 : x - a < bs.length := by omega
      simp [h1, h2, h3, h4, Nat.le_of_not_lt h1]
    · have h3 : a + bs.length ≤ x := by omega
      have h4 : bs.length ≤ x - a := by omega
      simp [h1, h2, h3, h4]

/-- A byte written is the byte read. -/
theorem Memory.read_write_same (m : Memory) (a : Nat) (b : Byte) : (m.write a b).read a = some b := by
  simp [Memory.write, Memory.read_writeBytes]

/-- A write leaves every other byte alone. -/
theorem Memory.read_write_other (m : Memory) (a x : Nat) (b : Byte) (h : x ≠ a) :
    (m.write a b).read x = m.read x := by
  have : ¬ (a ≤ x ∧ x < a + 1) := by omega
  rw [Memory.write, Memory.read_writeBytes, if_neg (by simpa using this)]

theorem Memory.cells_bounds (a : Nat) (bs : List Byte) :
    ∀ c ∈ Memory.cells a bs, a ≤ c.1 ∧ c.1 < a + bs.length := by
  induction bs generalizing a with
  | nil => simp [Memory.cells]
  | cons b bs ih =>
    intro c hc
    rcases List.mem_cons.1 hc with rfl | hc
    · simp
    · have := ih (a + 1) c hc
      simp only [List.length_cons]; omega

theorem Memory.cells_rising (a : Nat) (bs : List Byte) :
    (Memory.cells a bs).Pairwise (fun c d => c.1 < d.1) := by
  induction bs generalizing a with
  | nil => exact List.Pairwise.nil
  | cons b bs ih =>
    refine List.Pairwise.cons (fun c hc => ?_) (ih (a + 1))
    have := Memory.cells_bounds (a + 1) bs c hc
    show a < c.1
    omega

/-- The empty memory is canonical. -/
theorem Memory.wf_nil (size : Nat) : Memory.wf [] size := by simp [Memory.wf]

/-- Every write within the size keeps the canonical form. -/
theorem Memory.wf_writeBytes {m : Memory} {size : Nat} (h : m.wf size) {a : Nat} {bs : List Byte}
    (hb : a + bs.length ≤ size) : (m.writeBytes a bs).wf size := by
  obtain ⟨hr, hs⟩ := h
  have lo : ∀ c ∈ m.filter (fun c => decide (c.1 < a)), c.1 < a := fun c hc => by
    simpa using (List.mem_filter.1 hc).2
  have hi : ∀ c ∈ m.filter (fun c => decide (a + bs.length ≤ c.1)), a + bs.length ≤ c.1 := fun c hc => by
    simpa using (List.mem_filter.1 hc).2
  have mid := Memory.cells_bounds a bs
  refine ⟨?_, fun c hc => ?_⟩
  · rw [Memory.writeBytes, List.pairwise_append, List.pairwise_append]
    refine ⟨⟨hr.filter _, Memory.cells_rising a bs, fun c hc d hd => ?_⟩, hr.filter _, fun c hc d hd => ?_⟩
    · have := lo c hc; have := mid d hd; omega
    · have hd' := hi d hd
      rcases List.mem_append.1 hc with hc | hc
      · have := lo c hc; omega
      · have := mid c hc; omega
  · rw [Memory.writeBytes, List.mem_append, List.mem_append] at hc
    rcases hc with (hc | hc) | hc
    · exact hs c (List.mem_filter.1 hc).1
    · have := mid c hc; omega
    · exact hs c (List.mem_filter.1 hc).1

/-- Every one-byte write within the size keeps the canonical form. -/
theorem Memory.wf_write {m : Memory} {size : Nat} (h : m.wf size) {a : Nat} {b : Byte} (ha : a < size) :
    (m.write a b).wf size := Memory.wf_writeBytes h (by simpa using ha)

/-- A block read answers as many bytes as it was asked for. -/
theorem Memory.length_of_readBytes {m : Memory} {a n : Nat} {bs : List Byte}
    (h : m.readBytes a n = some bs) : bs.length = n := by
  induction m generalizing a n bs with
  | nil => cases n with
    | zero => simp [Memory.readBytes] at h; simp [← h]
    | succ n => simp [Memory.readBytes] at h
  | cons c m ih =>
    cases n with
    | zero => simp [Memory.readBytes] at h; simp [← h]
    | succ n =>
      rw [Memory.readBytes] at h
      split at h
      · exact ih h
      · split at h
        · obtain ⟨bs', h', rfl⟩ := Option.map_eq_some_iff.1 h
          simp [ih h']
        · cases h

/-- On a canonical memory a cell below every other address is no other address's cell. -/
theorem Memory.read_of_lt {m : Memory} {a : Nat} (h : ∀ c ∈ m, a < c.1) : m.read a = none := by
  rw [Memory.read, List.find?_eq_none.2, Option.map_none]
  intro c hc
  have := h c hc
  simp; omega

/-- On a canonical memory a block read is the read of each of its bytes. -/
theorem Memory.readBytes_eq_some_iff {m : Memory} {size : Nat} (hm : m.wf size) (a n : Nat) (bs : List Byte) :
    m.readBytes a n = some bs ↔ bs.length = n ∧ ∀ i, i < n → m.read (a + i) = bs[i]? := by
  induction m generalizing a n bs with
  | nil =>
    cases n with
    | zero => simp [Memory.readBytes, eq_comm (a := [])]
    | succ n =>
      simp only [Memory.readBytes, reduceCtorEq, Memory.read_nil, false_iff, not_and]
      intro hl hb
      have := hb 0 (by omega)
      rw [eq_comm, List.getElem?_eq_none_iff] at this
      omega
  | cons c m ih =>
    obtain ⟨hr, hs⟩ := hm
    obtain ⟨hc, hr'⟩ := List.pairwise_cons.1 hr
    have hwf : Memory.wf m size := ⟨hr', fun d hd => hs d (List.mem_cons_of_mem _ hd)⟩
    cases n with
    | zero => simp [Memory.readBytes, eq_comm (a := [])]
    | succ n =>
      rw [Memory.readBytes]
      rcases Nat.lt_trichotomy c.1 a with h | h | h
      · rw [if_pos h, ih hwf]
        refine and_congr_right fun _ => forall_congr' fun i => imp_congr_right fun _ => ?_
        rw [Memory.read_cons, if_neg (by omega)]
      · subst h
        rw [if_neg (by omega), if_pos rfl, Option.map_eq_some_iff]
        constructor
        · rintro ⟨bs', h', rfl⟩
          obtain ⟨hl, hb⟩ := (ih hwf _ _ _).1 h'
          refine ⟨by simp [hl], fun i hi => ?_⟩
          cases i with
          | zero => simp [Memory.read_cons]
          | succ i =>
            rw [Memory.read_cons, if_neg (by omega), List.getElem?_cons_succ, ← hb i (by omega)]
            congr 1; omega
        · rintro ⟨hl, hb⟩
          cases bs with
          | nil => simp at hl
          | cons b bs =>
            have h0 := hb 0 (by omega)
            rw [Memory.read_cons] at h0
            simp at h0
            subst h0
            refine ⟨bs, (ih hwf _ _ _).2 ⟨by simpa using hl, fun i hi => ?_⟩, rfl⟩
            have := hb (i + 1) (by omega)
            rw [Memory.read_cons, if_neg (by omega), List.getElem?_cons_succ] at this
            rw [← this]; congr 1; omega
      · rw [if_neg (by omega), if_neg (by omega)]
        simp only [reduceCtorEq, false_iff, not_and]
        intro hl hb
        have h0 := hb 0 (by omega)
        have : Memory.read m a = none := Memory.read_of_lt fun d hd => by have := hc d hd; omega
        rw [Nat.add_zero, Memory.read_cons, if_neg (by omega), this, eq_comm, List.getElem?_eq_none_iff] at h0
        omega

/-- A range has no bytes exactly when one of its addresses has none (R6, R45). -/
theorem Memory.readBytes_eq_none_iff {m : Memory} {size : Nat} (hm : m.wf size) (a n : Nat) :
    m.readBytes a n = none ↔ ∃ i, i < n ∧ m.read (a + i) = none := by
  constructor
  · intro h
    by_contra hall
    push Not at hall
    refine Option.some_ne_none _ (((Memory.readBytes_eq_some_iff hm a n
      ((List.range n).map fun i => (m.read (a + i)).getD 0)).2 ⟨by simp, fun i hi => ?_⟩).symm.trans h)
    obtain ⟨b, hb⟩ := Option.ne_none_iff_exists'.1 (hall i hi)
    simp [hi, hb]
  · rintro ⟨i, hi, hr⟩
    rcases h : m.readBytes a n with _ | bs
    · rfl
    · have hs := (Memory.readBytes_eq_some_iff hm a n bs).1 h
      have := (hs.2 i hi).symm.trans hr
      rw [List.getElem?_eq_none_iff] at this
      omega

theorem Memory.readBytes_cells_append (bs : List Byte) (a : Nat) (m : Memory) :
    Memory.readBytes (Memory.cells a bs ++ m) a bs.length = some bs := by
  induction bs generalizing a with
  | nil => cases m <;> rfl
  | cons b bs ih => simp [Memory.cells, Memory.readBytes, ih (a + 1)]

/-- The block written at address 0 is the block read there. -/
theorem Memory.readBytes_writeBytes_zero (m : Memory) (bs : List Byte) :
    (m.writeBytes 0 bs).readBytes 0 bs.length = some bs := by
  have : m.filter (fun c => decide (c.1 < 0)) = [] := by simp
  rw [Memory.writeBytes, this, List.nil_append]
  exact Memory.readBytes_cells_append bs 0 _

end Sys2Proof.Machine
end

