-- ==== Sys2Proof/Laws/Codec.lean ====
section
/-! SUPPORT. The lengths of the codec's sequences (R142, R145) and the bytes a 16-bit value splits into (R65, R109). -/

namespace Sys2Proof

/-- Bit `i` of a 16-bit value built from two bytes. -/
theorem getLsbD_u16OfBytes (lo hi : Byte) (i : Nat) (h : i < 16) :
    (u16OfBytes lo hi).getLsbD i = if i < 8 then lo.getLsbD i else hi.getLsbD (i - 8) := by
  by_cases h8 : i < 8
  · simp [u16OfBytes, h8, h]
  · have : lo.getLsbD i = false := BitVec.getLsbD_of_ge lo i (by omega)
    simp [u16OfBytes, h8, h, this]

@[simp] theorem lowByte_u16OfBytes (lo hi : Byte) : lowByte (u16OfBytes lo hi) = lo := by
  refine BitVec.eq_of_getLsbD_eq fun i hi' => ?_
  simp [lowByte, hi', getLsbD_u16OfBytes lo hi i (by omega)]

@[simp] theorem highByte_u16OfBytes (lo hi : Byte) : highByte (u16OfBytes lo hi) = hi := by
  refine BitVec.eq_of_getLsbD_eq fun i hi' => ?_
  simp [highByte, hi', getLsbD_u16OfBytes lo hi (8 + i) (by omega)]

/-- A 16-bit value is its low byte and its high byte (R65). -/
@[simp] theorem u16OfBytes_bytes (v : U16) : u16OfBytes (lowByte v) (highByte v) = v := by
  refine BitVec.eq_of_getLsbD_eq fun i hi' => ?_
  rw [getLsbD_u16OfBytes _ _ i hi']
  by_cases h : i < 8
  · simp [lowByte, h]
  · have : 8 + (i - 8) = i := by omega
    have h2 : i - 8 < 8 := by omega
    simp [highByte, h, this, h2]

@[simp] theorem length_frameBytes (p : List Byte) (f : Bool) (c : U16) :
    (frameBytes p f c).length = p.length + 3 := by simp [frameBytes]

namespace Machine

/-- A padded chunk has 256 bytes (R142). -/
theorem length_padChunk {c : List Byte} (h : c.length ≤ 256) : (padChunk c).length = 256 := by
  simp only [padChunk, List.length_append, List.length_replicate, Config.chunkSize]; omega

/-- A frame has 259 bytes, whatever the chunk's length (R145). -/
theorem length_encodeFrame {c : List Byte} (h : c.length ≤ 256) : (encodeFrame c).length = 259 := by
  rw [encodeFrame, length_frameBytes, length_padChunk h]

/-- The chunk the FSM builds a frame from has the length of R99, at most 256 bytes. -/
theorem length_currentChunk {s : State} {c : List Byte} (h : currentChunk s = some c) :
    c.length = chunkLen s.imgLen.toNat s.chunkIdx.toNat ∧ c.length ≤ 256 := by
  have := Memory.length_of_readBytes h
  refine ⟨this, this ▸ ?_⟩
  simp only [chunkLen, Config.chunkSize]; omega

theorem length_chunkBuffer {s : State} {c : List Byte} (h : chunkBuffer s = some c) : c.length = s.cbLen.toNat :=
  Memory.length_of_readBytes h

theorem length_frameBuffer {s : State} {f : List Byte} (h : frameBuffer s = some f) : f.length = 259 :=
  Memory.length_of_readBytes h

end Machine
end Sys2Proof
end

