-- ==== Sys2Proof/Laws/State.lean ====
section
/-! SUPPORT. One lemma per field per named update of State: what the update leaves in that field. -/

namespace Sys2Proof.Machine

@[simp] theorem moveTo_crcAcc (st : FsmState) (ph : Phase) (s : State) : (moveTo st ph s).crcAcc = s.crcAcc := rfl
@[simp] theorem moveTo_cb (st : FsmState) (ph : Phase) (s : State) : (moveTo st ph s).cb = s.cb := rfl
@[simp] theorem moveTo_cbLen (st : FsmState) (ph : Phase) (s : State) : (moveTo st ph s).cbLen = s.cbLen := rfl
@[simp] theorem moveTo_fb (st : FsmState) (ph : Phase) (s : State) : (moveTo st ph s).fb = s.fb := rfl
@[simp] theorem moveTo_chkOk (st : FsmState) (ph : Phase) (s : State) : (moveTo st ph s).chkOk = s.chkOk := rfl
@[simp] theorem moveTo_chkFlagLegal (st : FsmState) (ph : Phase) (s : State) : (moveTo st ph s).chkFlagLegal = s.chkFlagLegal := rfl
@[simp] theorem moveTo_chkFlag (st : FsmState) (ph : Phase) (s : State) : (moveTo st ph s).chkFlag = s.chkFlag := rfl
@[simp] theorem moveTo_chkCrcRx (st : FsmState) (ph : Phase) (s : State) : (moveTo st ph s).chkCrcRx = s.chkCrcRx := rfl
@[simp] theorem moveTo_state (st : FsmState) (ph : Phase) (s : State) : (moveTo st ph s).state = st := rfl
@[simp] theorem moveTo_phase (st : FsmState) (ph : Phase) (s : State) : (moveTo st ph s).phase = ph := rfl
@[simp] theorem moveTo_outcome (st : FsmState) (ph : Phase) (s : State) : (moveTo st ph s).outcome = s.outcome := rfl
@[simp] theorem moveTo_chunkIdx (st : FsmState) (ph : Phase) (s : State) : (moveTo st ph s).chunkIdx = s.chunkIdx := rfl
@[simp] theorem moveTo_retryCnt (st : FsmState) (ph : Phase) (s : State) : (moveTo st ph s).retryCnt = s.retryCnt := rfl
@[simp] theorem moveTo_errCause (st : FsmState) (ph : Phase) (s : State) : (moveTo st ph s).errCause = s.errCause := rfl
@[simp] theorem moveTo_errChunk (st : FsmState) (ph : Phase) (s : State) : (moveTo st ph s).errChunk = s.errChunk := rfl
@[simp] theorem moveTo_protoViol (st : FsmState) (ph : Phase) (s : State) : (moveTo st ph s).protoViol = s.protoViol := rfl
@[simp] theorem moveTo_cmdErr (st : FsmState) (ph : Phase) (s : State) : (moveTo st ph s).cmdErr = s.cmdErr := rfl
@[simp] theorem moveTo_imgLen (st : FsmState) (ph : Phase) (s : State) : (moveTo st ph s).imgLen = s.imgLen := rfl
@[simp] theorem moveTo_cfgMaxRetries (st : FsmState) (ph : Phase) (s : State) : (moveTo st ph s).cfgMaxRetries = s.cfgMaxRetries := rfl
@[simp] theorem moveTo_cfgRetryDelayMs (st : FsmState) (ph : Phase) (s : State) : (moveTo st ph s).cfgRetryDelayMs = s.cfgRetryDelayMs := rfl
@[simp] theorem moveTo_rxq (st : FsmState) (ph : Phase) (s : State) : (moveTo st ph s).rxq = s.rxq := rfl
@[simp] theorem moveTo_txh (st : FsmState) (ph : Phase) (s : State) : (moveTo st ph s).txh = s.txh := rfl
@[simp] theorem moveTo_delayT (st : FsmState) (ph : Phase) (s : State) : (moveTo st ph s).delayT = s.delayT := rfl
@[simp] theorem moveTo_img (st : FsmState) (ph : Phase) (s : State) : (moveTo st ph s).img = s.img := rfl
@[simp] theorem moveTo_params (st : FsmState) (ph : Phase) (s : State) : (moveTo st ph s).params = s.params := rfl
@[simp] theorem moveTo_inputs (st : FsmState) (ph : Phase) (s : State) : (moveTo st ph s).inputs = s.inputs := rfl
@[simp] theorem moveTo_answer (st : FsmState) (ph : Phase) (s : State) : (moveTo st ph s).answer = s.answer := rfl
@[simp] theorem moveTo_portData (st : FsmState) (ph : Phase) (s : State) : (moveTo st ph s).portData = s.portData := rfl

@[simp] theorem raise_crcAcc (c : Cause) (s : State) : (raise c s).crcAcc = s.crcAcc := rfl
@[simp] theorem raise_cb (c : Cause) (s : State) : (raise c s).cb = s.cb := rfl
@[simp] theorem raise_cbLen (c : Cause) (s : State) : (raise c s).cbLen = s.cbLen := rfl
@[simp] theorem raise_fb (c : Cause) (s : State) : (raise c s).fb = s.fb := rfl
@[simp] theorem raise_chkOk (c : Cause) (s : State) : (raise c s).chkOk = s.chkOk := rfl
@[simp] theorem raise_chkFlagLegal (c : Cause) (s : State) : (raise c s).chkFlagLegal = s.chkFlagLegal := rfl
@[simp] theorem raise_chkFlag (c : Cause) (s : State) : (raise c s).chkFlag = s.chkFlag := rfl
@[simp] theorem raise_chkCrcRx (c : Cause) (s : State) : (raise c s).chkCrcRx = s.chkCrcRx := rfl
@[simp] theorem raise_state (c : Cause) (s : State) : (raise c s).state = .aborted := rfl
@[simp] theorem raise_phase (c : Cause) (s : State) : (raise c s).phase = .none := rfl
@[simp] theorem raise_outcome (c : Cause) (s : State) : (raise c s).outcome = .aborted := rfl
@[simp] theorem raise_chunkIdx (c : Cause) (s : State) : (raise c s).chunkIdx = s.chunkIdx := rfl
@[simp] theorem raise_retryCnt (c : Cause) (s : State) : (raise c s).retryCnt = s.retryCnt := rfl
@[simp] theorem raise_errCause (c : Cause) (s : State) : (raise c s).errCause = c := rfl
@[simp] theorem raise_errChunk (c : Cause) (s : State) : (raise c s).errChunk = s.chunkIdx := rfl
@[simp] theorem raise_protoViol (c : Cause) (s : State) : (raise c s).protoViol = s.protoViol := rfl
@[simp] theorem raise_cmdErr (c : Cause) (s : State) : (raise c s).cmdErr = s.cmdErr := rfl
@[simp] theorem raise_imgLen (c : Cause) (s : State) : (raise c s).imgLen = s.imgLen := rfl
@[simp] theorem raise_cfgMaxRetries (c : Cause) (s : State) : (raise c s).cfgMaxRetries = s.cfgMaxRetries := rfl
@[simp] theorem raise_cfgRetryDelayMs (c : Cause) (s : State) : (raise c s).cfgRetryDelayMs = s.cfgRetryDelayMs := rfl
@[simp] theorem raise_rxq (c : Cause) (s : State) : (raise c s).rxq = s.rxq := rfl
@[simp] theorem raise_txh (c : Cause) (s : State) : (raise c s).txh = s.txh := rfl
@[simp] theorem raise_delayT (c : Cause) (s : State) : (raise c s).delayT = s.delayT := rfl
@[simp] theorem raise_img (c : Cause) (s : State) : (raise c s).img = s.img := rfl
@[simp] theorem raise_params (c : Cause) (s : State) : (raise c s).params = s.params := rfl
@[simp] theorem raise_inputs (c : Cause) (s : State) : (raise c s).inputs = s.inputs := rfl
@[simp] theorem raise_answer (c : Cause) (s : State) : (raise c s).answer = s.answer := rfl
@[simp] theorem raise_portData (c : Cause) (s : State) : (raise c s).portData = s.portData := rfl

@[simp] theorem returnToIdle_crcAcc (s : State) : (returnToIdle s).crcAcc = s.crcAcc := rfl
@[simp] theorem returnToIdle_cb (s : State) : (returnToIdle s).cb = s.cb := rfl
@[simp] theorem returnToIdle_cbLen (s : State) : (returnToIdle s).cbLen = s.cbLen := rfl
@[simp] theorem returnToIdle_fb (s : State) : (returnToIdle s).fb = s.fb := rfl
@[simp] theorem returnToIdle_chkOk (s : State) : (returnToIdle s).chkOk = s.chkOk := rfl
@[simp] theorem returnToIdle_chkFlagLegal (s : State) : (returnToIdle s).chkFlagLegal = s.chkFlagLegal := rfl
@[simp] theorem returnToIdle_chkFlag (s : State) : (returnToIdle s).chkFlag = s.chkFlag := rfl
@[simp] theorem returnToIdle_chkCrcRx (s : State) : (returnToIdle s).chkCrcRx = s.chkCrcRx := rfl
@[simp] theorem returnToIdle_state (s : State) : (returnToIdle s).state = .idle := rfl
@[simp] theorem returnToIdle_phase (s : State) : (returnToIdle s).phase = .none := rfl
@[simp] theorem returnToIdle_outcome (s : State) : (returnToIdle s).outcome = .none := rfl
@[simp] theorem returnToIdle_chunkIdx (s : State) : (returnToIdle s).chunkIdx = 0 := rfl
@[simp] theorem returnToIdle_retryCnt (s : State) : (returnToIdle s).retryCnt = 0 := rfl
@[simp] theorem returnToIdle_errCause (s : State) : (returnToIdle s).errCause = .none := rfl
@[simp] theorem returnToIdle_errChunk (s : State) : (returnToIdle s).errChunk = 0 := rfl
@[simp] theorem returnToIdle_protoViol (s : State) : (returnToIdle s).protoViol = s.protoViol := rfl
@[simp] theorem returnToIdle_cmdErr (s : State) : (returnToIdle s).cmdErr = s.cmdErr := rfl
@[simp] theorem returnToIdle_imgLen (s : State) : (returnToIdle s).imgLen = s.imgLen := rfl
@[simp] theorem returnToIdle_cfgMaxRetries (s : State) : (returnToIdle s).cfgMaxRetries = s.cfgMaxRetries := rfl
@[simp] theorem returnToIdle_cfgRetryDelayMs (s : State) : (returnToIdle s).cfgRetryDelayMs = s.cfgRetryDelayMs := rfl
@[simp] theorem returnToIdle_rxq (s : State) : (returnToIdle s).rxq = s.rxq := rfl
@[simp] theorem returnToIdle_txh (s : State) : (returnToIdle s).txh = s.txh := rfl
@[simp] theorem returnToIdle_delayT (s : State) : (returnToIdle s).delayT = s.delayT := rfl
@[simp] theorem returnToIdle_img (s : State) : (returnToIdle s).img = s.img := rfl
@[simp] theorem returnToIdle_params (s : State) : (returnToIdle s).params = s.params := rfl
@[simp] theorem returnToIdle_inputs (s : State) : (returnToIdle s).inputs = s.inputs := rfl
@[simp] theorem returnToIdle_answer (s : State) : (returnToIdle s).answer = s.answer := rfl
@[simp] theorem returnToIdle_portData (s : State) : (returnToIdle s).portData = s.portData := rfl

@[simp] theorem setCmdErr_crcAcc (s : State) : (setCmdErr s).crcAcc = s.crcAcc := rfl
@[simp] theorem setCmdErr_cb (s : State) : (setCmdErr s).cb = s.cb := rfl
@[simp] theorem setCmdErr_cbLen (s : State) : (setCmdErr s).cbLen = s.cbLen := rfl
@[simp] theorem setCmdErr_fb (s : State) : (setCmdErr s).fb = s.fb := rfl
@[simp] theorem setCmdErr_chkOk (s : State) : (setCmdErr s).chkOk = s.chkOk := rfl
@[simp] theorem setCmdErr_chkFlagLegal (s : State) : (setCmdErr s).chkFlagLegal = s.chkFlagLegal := rfl
@[simp] theorem setCmdErr_chkFlag (s : State) : (setCmdErr s).chkFlag = s.chkFlag := rfl
@[simp] theorem setCmdErr_chkCrcRx (s : State) : (setCmdErr s).chkCrcRx = s.chkCrcRx := rfl
@[simp] theorem setCmdErr_state (s : State) : (setCmdErr s).state = s.state := rfl
@[simp] theorem setCmdErr_phase (s : State) : (setCmdErr s).phase = s.phase := rfl
@[simp] theorem setCmdErr_outcome (s : State) : (setCmdErr s).outcome = s.outcome := rfl
@[simp] theorem setCmdErr_chunkIdx (s : State) : (setCmdErr s).chunkIdx = s.chunkIdx := rfl
@[simp] theorem setCmdErr_retryCnt (s : State) : (setCmdErr s).retryCnt = s.retryCnt := rfl
@[simp] theorem setCmdErr_errCause (s : State) : (setCmdErr s).errCause = s.errCause := rfl
@[simp] theorem setCmdErr_errChunk (s : State) : (setCmdErr s).errChunk = s.errChunk := rfl
@[simp] theorem setCmdErr_protoViol (s : State) : (setCmdErr s).protoViol = s.protoViol := rfl
@[simp] theorem setCmdErr_cmdErr (s : State) : (setCmdErr s).cmdErr = true := rfl
@[simp] theorem setCmdErr_imgLen (s : State) : (setCmdErr s).imgLen = s.imgLen := rfl
@[simp] theorem setCmdErr_cfgMaxRetries (s : State) : (setCmdErr s).cfgMaxRetries = s.cfgMaxRetries := rfl
@[simp] theorem setCmdErr_cfgRetryDelayMs (s : State) : (setCmdErr s).cfgRetryDelayMs = s.cfgRetryDelayMs := rfl
@[simp] theorem setCmdErr_rxq (s : State) : (setCmdErr s).rxq = s.rxq := rfl
@[simp] theorem setCmdErr_txh (s : State) : (setCmdErr s).txh = s.txh := rfl
@[simp] theorem setCmdErr_delayT (s : State) : (setCmdErr s).delayT = s.delayT := rfl
@[simp] theorem setCmdErr_img (s : State) : (setCmdErr s).img = s.img := rfl
@[simp] theorem setCmdErr_params (s : State) : (setCmdErr s).params = s.params := rfl
@[simp] theorem setCmdErr_inputs (s : State) : (setCmdErr s).inputs = s.inputs := rfl
@[simp] theorem setCmdErr_answer (s : State) : (setCmdErr s).answer = s.answer := rfl
@[simp] theorem setCmdErr_portData (s : State) : (setCmdErr s).portData = s.portData := rfl

@[simp] theorem setProtoViol_crcAcc (s : State) : (setProtoViol s).crcAcc = s.crcAcc := rfl
@[simp] theorem setProtoViol_cb (s : State) : (setProtoViol s).cb = s.cb := rfl
@[simp] theorem setProtoViol_cbLen (s : State) : (setProtoViol s).cbLen = s.cbLen := rfl
@[simp] theorem setProtoViol_fb (s : State) : (setProtoViol s).fb = s.fb := rfl
@[simp] theorem setProtoViol_chkOk (s : State) : (setProtoViol s).chkOk = s.chkOk := rfl
@[simp] theorem setProtoViol_chkFlagLegal (s : State) : (setProtoViol s).chkFlagLegal = s.chkFlagLegal := rfl
@[simp] theorem setProtoViol_chkFlag (s : State) : (setProtoViol s).chkFlag = s.chkFlag := rfl
@[simp] theorem setProtoViol_chkCrcRx (s : State) : (setProtoViol s).chkCrcRx = s.chkCrcRx := rfl
@[simp] theorem setProtoViol_state (s : State) : (setProtoViol s).state = s.state := rfl
@[simp] theorem setProtoViol_phase (s : State) : (setProtoViol s).phase = s.phase := rfl
@[simp] theorem setProtoViol_outcome (s : State) : (setProtoViol s).outcome = s.outcome := rfl
@[simp] theorem setProtoViol_chunkIdx (s : State) : (setProtoViol s).chunkIdx = s.chunkIdx := rfl
@[simp] theorem setProtoViol_retryCnt (s : State) : (setProtoViol s).retryCnt = s.retryCnt := rfl
@[simp] theorem setProtoViol_errCause (s : State) : (setProtoViol s).errCause = s.errCause := rfl
@[simp] theorem setProtoViol_errChunk (s : State) : (setProtoViol s).errChunk = s.errChunk := rfl
@[simp] theorem setProtoViol_protoViol (s : State) : (setProtoViol s).protoViol = true := rfl
@[simp] theorem setProtoViol_cmdErr (s : State) : (setProtoViol s).cmdErr = s.cmdErr := rfl
@[simp] theorem setProtoViol_imgLen (s : State) : (setProtoViol s).imgLen = s.imgLen := rfl
@[simp] theorem setProtoViol_cfgMaxRetries (s : State) : (setProtoViol s).cfgMaxRetries = s.cfgMaxRetries := rfl
@[simp] theorem setProtoViol_cfgRetryDelayMs (s : State) : (setProtoViol s).cfgRetryDelayMs = s.cfgRetryDelayMs := rfl
@[simp] theorem setProtoViol_rxq (s : State) : (setProtoViol s).rxq = s.rxq := rfl
@[simp] theorem setProtoViol_txh (s : State) : (setProtoViol s).txh = s.txh := rfl
@[simp] theorem setProtoViol_delayT (s : State) : (setProtoViol s).delayT = s.delayT := rfl
@[simp] theorem setProtoViol_img (s : State) : (setProtoViol s).img = s.img := rfl
@[simp] theorem setProtoViol_params (s : State) : (setProtoViol s).params = s.params := rfl
@[simp] theorem setProtoViol_inputs (s : State) : (setProtoViol s).inputs = s.inputs := rfl
@[simp] theorem setProtoViol_answer (s : State) : (setProtoViol s).answer = s.answer := rfl
@[simp] theorem setProtoViol_portData (s : State) : (setProtoViol s).portData = s.portData := rfl

@[simp] theorem clearFlags_crcAcc (v : Word) (s : State) : (clearFlags v s).crcAcc = s.crcAcc := rfl
@[simp] theorem clearFlags_cb (v : Word) (s : State) : (clearFlags v s).cb = s.cb := rfl
@[simp] theorem clearFlags_cbLen (v : Word) (s : State) : (clearFlags v s).cbLen = s.cbLen := rfl
@[simp] theorem clearFlags_fb (v : Word) (s : State) : (clearFlags v s).fb = s.fb := rfl
@[simp] theorem clearFlags_chkOk (v : Word) (s : State) : (clearFlags v s).chkOk = s.chkOk := rfl
@[simp] theorem clearFlags_chkFlagLegal (v : Word) (s : State) : (clearFlags v s).chkFlagLegal = s.chkFlagLegal := rfl
@[simp] theorem clearFlags_chkFlag (v : Word) (s : State) : (clearFlags v s).chkFlag = s.chkFlag := rfl
@[simp] theorem clearFlags_chkCrcRx (v : Word) (s : State) : (clearFlags v s).chkCrcRx = s.chkCrcRx := rfl
@[simp] theorem clearFlags_state (v : Word) (s : State) : (clearFlags v s).state = s.state := rfl
@[simp] theorem clearFlags_phase (v : Word) (s : State) : (clearFlags v s).phase = s.phase := rfl
@[simp] theorem clearFlags_outcome (v : Word) (s : State) : (clearFlags v s).outcome = s.outcome := rfl
@[simp] theorem clearFlags_chunkIdx (v : Word) (s : State) : (clearFlags v s).chunkIdx = s.chunkIdx := rfl
@[simp] theorem clearFlags_retryCnt (v : Word) (s : State) : (clearFlags v s).retryCnt = s.retryCnt := rfl
@[simp] theorem clearFlags_errCause (v : Word) (s : State) : (clearFlags v s).errCause = s.errCause := rfl
@[simp] theorem clearFlags_errChunk (v : Word) (s : State) : (clearFlags v s).errChunk = s.errChunk := rfl
@[simp] theorem clearFlags_protoViol (v : Word) (s : State) : (clearFlags v s).protoViol = (s.protoViol && !v.getLsbD 0) := rfl
@[simp] theorem clearFlags_cmdErr (v : Word) (s : State) : (clearFlags v s).cmdErr = (s.cmdErr && !v.getLsbD 1) := rfl
@[simp] theorem clearFlags_imgLen (v : Word) (s : State) : (clearFlags v s).imgLen = s.imgLen := rfl
@[simp] theorem clearFlags_cfgMaxRetries (v : Word) (s : State) : (clearFlags v s).cfgMaxRetries = s.cfgMaxRetries := rfl
@[simp] theorem clearFlags_cfgRetryDelayMs (v : Word) (s : State) : (clearFlags v s).cfgRetryDelayMs = s.cfgRetryDelayMs := rfl
@[simp] theorem clearFlags_rxq (v : Word) (s : State) : (clearFlags v s).rxq = s.rxq := rfl
@[simp] theorem clearFlags_txh (v : Word) (s : State) : (clearFlags v s).txh = s.txh := rfl
@[simp] theorem clearFlags_delayT (v : Word) (s : State) : (clearFlags v s).delayT = s.delayT := rfl
@[simp] theorem clearFlags_img (v : Word) (s : State) : (clearFlags v s).img = s.img := rfl
@[simp] theorem clearFlags_params (v : Word) (s : State) : (clearFlags v s).params = s.params := rfl
@[simp] theorem clearFlags_inputs (v : Word) (s : State) : (clearFlags v s).inputs = s.inputs := rfl
@[simp] theorem clearFlags_answer (v : Word) (s : State) : (clearFlags v s).answer = s.answer := rfl
@[simp] theorem clearFlags_portData (v : Word) (s : State) : (clearFlags v s).portData = s.portData := rfl

@[simp] theorem buildFrame_crcAcc (c : List Byte) (s : State) : (buildFrame c s).crcAcc = checksum (padChunk c) := rfl
@[simp] theorem buildFrame_cb (c : List Byte) (s : State) : (buildFrame c s).cb = s.cb := rfl
@[simp] theorem buildFrame_cbLen (c : List Byte) (s : State) : (buildFrame c s).cbLen = s.cbLen := rfl
@[simp] theorem buildFrame_fb (c : List Byte) (s : State) : (buildFrame c s).fb = s.fb.writeBytes 0 (encodeFrame c) := rfl
@[simp] theorem buildFrame_chkOk (c : List Byte) (s : State) : (buildFrame c s).chkOk = s.chkOk := rfl
@[simp] theorem buildFrame_chkFlagLegal (c : List Byte) (s : State) : (buildFrame c s).chkFlagLegal = s.chkFlagLegal := rfl
@[simp] theorem buildFrame_chkFlag (c : List Byte) (s : State) : (buildFrame c s).chkFlag = s.chkFlag := rfl
@[simp] theorem buildFrame_chkCrcRx (c : List Byte) (s : State) : (buildFrame c s).chkCrcRx = s.chkCrcRx := rfl
@[simp] theorem buildFrame_state (c : List Byte) (s : State) : (buildFrame c s).state = s.state := rfl
@[simp] theorem buildFrame_phase (c : List Byte) (s : State) : (buildFrame c s).phase = s.phase := rfl
@[simp] theorem buildFrame_outcome (c : List Byte) (s : State) : (buildFrame c s).outcome = s.outcome := rfl
@[simp] theorem buildFrame_chunkIdx (c : List Byte) (s : State) : (buildFrame c s).chunkIdx = s.chunkIdx := rfl
@[simp] theorem buildFrame_retryCnt (c : List Byte) (s : State) : (buildFrame c s).retryCnt = s.retryCnt := rfl
@[simp] theorem buildFrame_errCause (c : List Byte) (s : State) : (buildFrame c s).errCause = s.errCause := rfl
@[simp] theorem buildFrame_errChunk (c : List Byte) (s : State) : (buildFrame c s).errChunk = s.errChunk := rfl
@[simp] theorem buildFrame_protoViol (c : List Byte) (s : State) : (buildFrame c s).protoViol = s.protoViol := rfl
@[simp] theorem buildFrame_cmdErr (c : List Byte) (s : State) : (buildFrame c s).cmdErr = s.cmdErr := rfl
@[simp] theorem buildFrame_imgLen (c : List Byte) (s : State) : (buildFrame c s).imgLen = s.imgLen := rfl
@[simp] theorem buildFrame_cfgMaxRetries (c : List Byte) (s : State) : (buildFrame c s).cfgMaxRetries = s.cfgMaxRetries := rfl
@[simp] theorem buildFrame_cfgRetryDelayMs (c : List Byte) (s : State) : (buildFrame c s).cfgRetryDelayMs = s.cfgRetryDelayMs := rfl
@[simp] theorem buildFrame_rxq (c : List Byte) (s : State) : (buildFrame c s).rxq = s.rxq := rfl
@[simp] theorem buildFrame_txh (c : List Byte) (s : State) : (buildFrame c s).txh = s.txh := rfl
@[simp] theorem buildFrame_delayT (c : List Byte) (s : State) : (buildFrame c s).delayT = s.delayT := rfl
@[simp] theorem buildFrame_img (c : List Byte) (s : State) : (buildFrame c s).img = s.img := rfl
@[simp] theorem buildFrame_params (c : List Byte) (s : State) : (buildFrame c s).params = s.params := rfl
@[simp] theorem buildFrame_inputs (c : List Byte) (s : State) : (buildFrame c s).inputs = s.inputs := rfl
@[simp] theorem buildFrame_answer (c : List Byte) (s : State) : (buildFrame c s).answer = s.answer := rfl
@[simp] theorem buildFrame_portData (c : List Byte) (s : State) : (buildFrame c s).portData = s.portData := rfl

@[simp] theorem recordCheck_crcAcc (r : CheckResult) (s : State) : (recordCheck r s).crcAcc = r.crcCalc := rfl
@[simp] theorem recordCheck_cb (r : CheckResult) (s : State) : (recordCheck r s).cb = s.cb := rfl
@[simp] theorem recordCheck_cbLen (r : CheckResult) (s : State) : (recordCheck r s).cbLen = s.cbLen := rfl
@[simp] theorem recordCheck_fb (r : CheckResult) (s : State) : (recordCheck r s).fb = s.fb := rfl
@[simp] theorem recordCheck_chkOk (r : CheckResult) (s : State) : (recordCheck r s).chkOk = r.ok := rfl
@[simp] theorem recordCheck_chkFlagLegal (r : CheckResult) (s : State) : (recordCheck r s).chkFlagLegal = r.flagLegal := rfl
@[simp] theorem recordCheck_chkFlag (r : CheckResult) (s : State) : (recordCheck r s).chkFlag = r.flag := rfl
@[simp] theorem recordCheck_chkCrcRx (r : CheckResult) (s : State) : (recordCheck r s).chkCrcRx = r.crcRx := rfl
@[simp] theorem recordCheck_state (r : CheckResult) (s : State) : (recordCheck r s).state = s.state := rfl
@[simp] theorem recordCheck_phase (r : CheckResult) (s : State) : (recordCheck r s).phase = s.phase := rfl
@[simp] theorem recordCheck_outcome (r : CheckResult) (s : State) : (recordCheck r s).outcome = s.outcome := rfl
@[simp] theorem recordCheck_chunkIdx (r : CheckResult) (s : State) : (recordCheck r s).chunkIdx = s.chunkIdx := rfl
@[simp] theorem recordCheck_retryCnt (r : CheckResult) (s : State) : (recordCheck r s).retryCnt = s.retryCnt := rfl
@[simp] theorem recordCheck_errCause (r : CheckResult) (s : State) : (recordCheck r s).errCause = s.errCause := rfl
@[simp] theorem recordCheck_errChunk (r : CheckResult) (s : State) : (recordCheck r s).errChunk = s.errChunk := rfl
@[simp] theorem recordCheck_protoViol (r : CheckResult) (s : State) : (recordCheck r s).protoViol = s.protoViol := rfl
@[simp] theorem recordCheck_cmdErr (r : CheckResult) (s : State) : (recordCheck r s).cmdErr = s.cmdErr := rfl
@[simp] theorem recordCheck_imgLen (r : CheckResult) (s : State) : (recordCheck r s).imgLen = s.imgLen := rfl
@[simp] theorem recordCheck_cfgMaxRetries (r : CheckResult) (s : State) : (recordCheck r s).cfgMaxRetries = s.cfgMaxRetries := rfl
@[simp] theorem recordCheck_cfgRetryDelayMs (r : CheckResult) (s : State) : (recordCheck r s).cfgRetryDelayMs = s.cfgRetryDelayMs := rfl
@[simp] theorem recordCheck_rxq (r : CheckResult) (s : State) : (recordCheck r s).rxq = s.rxq := rfl
@[simp] theorem recordCheck_txh (r : CheckResult) (s : State) : (recordCheck r s).txh = s.txh := rfl
@[simp] theorem recordCheck_delayT (r : CheckResult) (s : State) : (recordCheck r s).delayT = s.delayT := rfl
@[simp] theorem recordCheck_img (r : CheckResult) (s : State) : (recordCheck r s).img = s.img := rfl
@[simp] theorem recordCheck_params (r : CheckResult) (s : State) : (recordCheck r s).params = s.params := rfl
@[simp] theorem recordCheck_inputs (r : CheckResult) (s : State) : (recordCheck r s).inputs = s.inputs := rfl
@[simp] theorem recordCheck_answer (r : CheckResult) (s : State) : (recordCheck r s).answer = s.answer := rfl
@[simp] theorem recordCheck_portData (r : CheckResult) (s : State) : (recordCheck r s).portData = s.portData := rfl

@[simp] theorem loadChunk_crcAcc (c : List Byte) (s : State) : (loadChunk c s).crcAcc = checksum (padChunk c) := rfl
@[simp] theorem loadChunk_cb (c : List Byte) (s : State) : (loadChunk c s).cb = s.cb.writeBytes 0 c := rfl
@[simp] theorem loadChunk_cbLen (c : List Byte) (s : State) : (loadChunk c s).cbLen = BitVec.ofNat 9 c.length := rfl
@[simp] theorem loadChunk_fb (c : List Byte) (s : State) : (loadChunk c s).fb = s.fb.writeBytes 0 (encodeFrame c) := rfl
@[simp] theorem loadChunk_chkOk (c : List Byte) (s : State) : (loadChunk c s).chkOk = s.chkOk := rfl
@[simp] theorem loadChunk_chkFlagLegal (c : List Byte) (s : State) : (loadChunk c s).chkFlagLegal = s.chkFlagLegal := rfl
@[simp] theorem loadChunk_chkFlag (c : List Byte) (s : State) : (loadChunk c s).chkFlag = s.chkFlag := rfl
@[simp] theorem loadChunk_chkCrcRx (c : List Byte) (s : State) : (loadChunk c s).chkCrcRx = s.chkCrcRx := rfl
@[simp] theorem loadChunk_state (c : List Byte) (s : State) : (loadChunk c s).state = s.state := rfl
@[simp] theorem loadChunk_phase (c : List Byte) (s : State) : (loadChunk c s).phase = s.phase := rfl
@[simp] theorem loadChunk_outcome (c : List Byte) (s : State) : (loadChunk c s).outcome = s.outcome := rfl
@[simp] theorem loadChunk_chunkIdx (c : List Byte) (s : State) : (loadChunk c s).chunkIdx = s.chunkIdx := rfl
@[simp] theorem loadChunk_retryCnt (c : List Byte) (s : State) : (loadChunk c s).retryCnt = s.retryCnt := rfl
@[simp] theorem loadChunk_errCause (c : List Byte) (s : State) : (loadChunk c s).errCause = s.errCause := rfl
@[simp] theorem loadChunk_errChunk (c : List Byte) (s : State) : (loadChunk c s).errChunk = s.errChunk := rfl
@[simp] theorem loadChunk_protoViol (c : List Byte) (s : State) : (loadChunk c s).protoViol = s.protoViol := rfl
@[simp] theorem loadChunk_cmdErr (c : List Byte) (s : State) : (loadChunk c s).cmdErr = s.cmdErr := rfl
@[simp] theorem loadChunk_imgLen (c : List Byte) (s : State) : (loadChunk c s).imgLen = s.imgLen := rfl
@[simp] theorem loadChunk_cfgMaxRetries (c : List Byte) (s : State) : (loadChunk c s).cfgMaxRetries = s.cfgMaxRetries := rfl
@[simp] theorem loadChunk_cfgRetryDelayMs (c : List Byte) (s : State) : (loadChunk c s).cfgRetryDelayMs = s.cfgRetryDelayMs := rfl
@[simp] theorem loadChunk_rxq (c : List Byte) (s : State) : (loadChunk c s).rxq = s.rxq := rfl
@[simp] theorem loadChunk_txh (c : List Byte) (s : State) : (loadChunk c s).txh = s.txh := rfl
@[simp] theorem loadChunk_delayT (c : List Byte) (s : State) : (loadChunk c s).delayT = s.delayT := rfl
@[simp] theorem loadChunk_img (c : List Byte) (s : State) : (loadChunk c s).img = s.img := rfl
@[simp] theorem loadChunk_params (c : List Byte) (s : State) : (loadChunk c s).params = s.params := rfl
@[simp] theorem loadChunk_inputs (c : List Byte) (s : State) : (loadChunk c s).inputs = s.inputs := rfl
@[simp] theorem loadChunk_answer (c : List Byte) (s : State) : (loadChunk c s).answer = s.answer := rfl
@[simp] theorem loadChunk_portData (c : List Byte) (s : State) : (loadChunk c s).portData = s.portData := rfl

@[simp] theorem enterPause_crcAcc (s : State) : (enterPause s).crcAcc = s.crcAcc := rfl
@[simp] theorem enterPause_cb (s : State) : (enterPause s).cb = s.cb := rfl
@[simp] theorem enterPause_cbLen (s : State) : (enterPause s).cbLen = s.cbLen := rfl
@[simp] theorem enterPause_fb (s : State) : (enterPause s).fb = s.fb := rfl
@[simp] theorem enterPause_chkOk (s : State) : (enterPause s).chkOk = s.chkOk := rfl
@[simp] theorem enterPause_chkFlagLegal (s : State) : (enterPause s).chkFlagLegal = s.chkFlagLegal := rfl
@[simp] theorem enterPause_chkFlag (s : State) : (enterPause s).chkFlag = s.chkFlag := rfl
@[simp] theorem enterPause_chkCrcRx (s : State) : (enterPause s).chkCrcRx = s.chkCrcRx := rfl
@[simp] theorem enterPause_state (s : State) : (enterPause s).state = .transferringChunks := rfl
@[simp] theorem enterPause_phase (s : State) : (enterPause s).phase = .retryDelay := rfl
@[simp] theorem enterPause_outcome (s : State) : (enterPause s).outcome = s.outcome := rfl
@[simp] theorem enterPause_chunkIdx (s : State) : (enterPause s).chunkIdx = s.chunkIdx := rfl
@[simp] theorem enterPause_retryCnt (s : State) : (enterPause s).retryCnt = s.retryCnt := rfl
@[simp] theorem enterPause_errCause (s : State) : (enterPause s).errCause = s.errCause := rfl
@[simp] theorem enterPause_errChunk (s : State) : (enterPause s).errChunk = s.errChunk := rfl
@[simp] theorem enterPause_protoViol (s : State) : (enterPause s).protoViol = s.protoViol := rfl
@[simp] theorem enterPause_cmdErr (s : State) : (enterPause s).cmdErr = s.cmdErr := rfl
@[simp] theorem enterPause_imgLen (s : State) : (enterPause s).imgLen = s.imgLen := rfl
@[simp] theorem enterPause_cfgMaxRetries (s : State) : (enterPause s).cfgMaxRetries = s.cfgMaxRetries := rfl
@[simp] theorem enterPause_cfgRetryDelayMs (s : State) : (enterPause s).cfgRetryDelayMs = s.cfgRetryDelayMs := rfl
@[simp] theorem enterPause_rxq (s : State) : (enterPause s).rxq = s.rxq := rfl
@[simp] theorem enterPause_txh (s : State) : (enterPause s).txh = s.txh := rfl
@[simp] theorem enterPause_delayT (s : State) : (enterPause s).delayT = 0 := rfl
@[simp] theorem enterPause_img (s : State) : (enterPause s).img = s.img := rfl
@[simp] theorem enterPause_params (s : State) : (enterPause s).params = s.params := rfl
@[simp] theorem enterPause_inputs (s : State) : (enterPause s).inputs = s.inputs := rfl
@[simp] theorem enterPause_answer (s : State) : (enterPause s).answer = s.answer := rfl
@[simp] theorem enterPause_portData (s : State) : (enterPause s).portData = s.portData := rfl

@[simp] theorem endPause_crcAcc (s : State) : (endPause s).crcAcc = s.crcAcc := rfl
@[simp] theorem endPause_cb (s : State) : (endPause s).cb = s.cb := rfl
@[simp] theorem endPause_cbLen (s : State) : (endPause s).cbLen = s.cbLen := rfl
@[simp] theorem endPause_fb (s : State) : (endPause s).fb = s.fb := rfl
@[simp] theorem endPause_chkOk (s : State) : (endPause s).chkOk = s.chkOk := rfl
@[simp] theorem endPause_chkFlagLegal (s : State) : (endPause s).chkFlagLegal = s.chkFlagLegal := rfl
@[simp] theorem endPause_chkFlag (s : State) : (endPause s).chkFlag = s.chkFlag := rfl
@[simp] theorem endPause_chkCrcRx (s : State) : (endPause s).chkCrcRx = s.chkCrcRx := rfl
@[simp] theorem endPause_state (s : State) : (endPause s).state = .transferringChunks := rfl
@[simp] theorem endPause_phase (s : State) : (endPause s).phase = .waitT := rfl
@[simp] theorem endPause_outcome (s : State) : (endPause s).outcome = s.outcome := rfl
@[simp] theorem endPause_chunkIdx (s : State) : (endPause s).chunkIdx = s.chunkIdx := rfl
@[simp] theorem endPause_retryCnt (s : State) : (endPause s).retryCnt = s.retryCnt := rfl
@[simp] theorem endPause_errCause (s : State) : (endPause s).errCause = s.errCause := rfl
@[simp] theorem endPause_errChunk (s : State) : (endPause s).errChunk = s.errChunk := rfl
@[simp] theorem endPause_protoViol (s : State) : (endPause s).protoViol = s.protoViol := rfl
@[simp] theorem endPause_cmdErr (s : State) : (endPause s).cmdErr = s.cmdErr := rfl
@[simp] theorem endPause_imgLen (s : State) : (endPause s).imgLen = s.imgLen := rfl
@[simp] theorem endPause_cfgMaxRetries (s : State) : (endPause s).cfgMaxRetries = s.cfgMaxRetries := rfl
@[simp] theorem endPause_cfgRetryDelayMs (s : State) : (endPause s).cfgRetryDelayMs = s.cfgRetryDelayMs := rfl
@[simp] theorem endPause_rxq (s : State) : (endPause s).rxq = s.rxq := rfl
@[simp] theorem endPause_txh (s : State) : (endPause s).txh = s.txh := rfl
@[simp] theorem endPause_delayT (s : State) : (endPause s).delayT = max s.delayT s.cfgRetryDelayMs.toNat := rfl
@[simp] theorem endPause_img (s : State) : (endPause s).img = s.img := rfl
@[simp] theorem endPause_params (s : State) : (endPause s).params = s.params := rfl
@[simp] theorem endPause_inputs (s : State) : (endPause s).inputs = s.inputs := rfl
@[simp] theorem endPause_answer (s : State) : (endPause s).answer = s.answer := rfl
@[simp] theorem endPause_portData (s : State) : (endPause s).portData = s.portData := rfl

@[simp] theorem regRead_crcAcc (n : BitVec 4) (s : State) : (regRead n s).crcAcc = s.crcAcc := rfl
@[simp] theorem regRead_cb (n : BitVec 4) (s : State) : (regRead n s).cb = s.cb := rfl
@[simp] theorem regRead_cbLen (n : BitVec 4) (s : State) : (regRead n s).cbLen = s.cbLen := rfl
@[simp] theorem regRead_fb (n : BitVec 4) (s : State) : (regRead n s).fb = s.fb := rfl
@[simp] theorem regRead_chkOk (n : BitVec 4) (s : State) : (regRead n s).chkOk = s.chkOk := rfl
@[simp] theorem regRead_chkFlagLegal (n : BitVec 4) (s : State) : (regRead n s).chkFlagLegal = s.chkFlagLegal := rfl
@[simp] theorem regRead_chkFlag (n : BitVec 4) (s : State) : (regRead n s).chkFlag = s.chkFlag := rfl
@[simp] theorem regRead_chkCrcRx (n : BitVec 4) (s : State) : (regRead n s).chkCrcRx = s.chkCrcRx := rfl
@[simp] theorem regRead_state (n : BitVec 4) (s : State) : (regRead n s).state = s.state := rfl
@[simp] theorem regRead_phase (n : BitVec 4) (s : State) : (regRead n s).phase = s.phase := rfl
@[simp] theorem regRead_outcome (n : BitVec 4) (s : State) : (regRead n s).outcome = s.outcome := rfl
@[simp] theorem regRead_chunkIdx (n : BitVec 4) (s : State) : (regRead n s).chunkIdx = s.chunkIdx := rfl
@[simp] theorem regRead_retryCnt (n : BitVec 4) (s : State) : (regRead n s).retryCnt = s.retryCnt := rfl
@[simp] theorem regRead_errCause (n : BitVec 4) (s : State) : (regRead n s).errCause = s.errCause := rfl
@[simp] theorem regRead_errChunk (n : BitVec 4) (s : State) : (regRead n s).errChunk = s.errChunk := rfl
@[simp] theorem regRead_protoViol (n : BitVec 4) (s : State) : (regRead n s).protoViol = s.protoViol := rfl
@[simp] theorem regRead_cmdErr (n : BitVec 4) (s : State) : (regRead n s).cmdErr = s.cmdErr := rfl
@[simp] theorem regRead_imgLen (n : BitVec 4) (s : State) : (regRead n s).imgLen = s.imgLen := rfl
@[simp] theorem regRead_cfgMaxRetries (n : BitVec 4) (s : State) : (regRead n s).cfgMaxRetries = s.cfgMaxRetries := rfl
@[simp] theorem regRead_cfgRetryDelayMs (n : BitVec 4) (s : State) : (regRead n s).cfgRetryDelayMs = s.cfgRetryDelayMs := rfl
@[simp] theorem regRead_rxq (n : BitVec 4) (s : State) : (regRead n s).rxq = s.rxq := rfl
@[simp] theorem regRead_txh (n : BitVec 4) (s : State) : (regRead n s).txh = s.txh := rfl
@[simp] theorem regRead_delayT (n : BitVec 4) (s : State) : (regRead n s).delayT = s.delayT := rfl
@[simp] theorem regRead_img (n : BitVec 4) (s : State) : (regRead n s).img = s.img := rfl
@[simp] theorem regRead_params (n : BitVec 4) (s : State) : (regRead n s).params = s.params := rfl
@[simp] theorem regRead_inputs (n : BitVec 4) (s : State) : (regRead n s).inputs = s.inputs := rfl
@[simp] theorem regRead_answer (n : BitVec 4) (s : State) : (regRead n s).answer = s.answer := rfl
@[simp] theorem regRead_portData (n : BitVec 4) (s : State) : (regRead n s).portData = regValue n s := rfl

end Sys2Proof.Machine
end

