-- ==== Sys2Proof/Laws/Link.lean ====
section
/-! SUPPORT. What a link access can do (R200 to R202), and what a transition that sends can do (R178). -/

namespace Sys2Proof.Machine

open Sys2Proof.Safety

/-- Either the link works, or it fails after some number of bytes. -/
theorem linkWorks_or_fails (s : State) : LinkWorks s ∨ ∃ n, s.answer = .error n := by
  rcases h : s.answer with _ | n | _
  · exact .inl (.inl h)
  · exact .inr ⟨n, rfl⟩
  · exact .inl (.inr h)

/-- A transition that sends, when the link works: every byte goes out, then the effect. -/
theorem sendThen_of_works {s : State} (h : LinkWorks s) (bs : List Byte) (k : State → State) :
    sendThen bs k s = k { s with txh := s.txh ++ bs, answer := .ok } := by
  rcases h with h | h <;> simp [sendThen, linkSend, h]

/-- A transition that sends, when the link fails: a proper leading part goes out and the session aborts (R178, R201). -/
theorem sendThen_of_error {s : State} {n : Nat} (h : s.answer = .error n) (bs : List Byte) (k : State → State) :
    sendThen bs k s =
      raise .linkUnavailable { s with txh := s.txh ++ sentBeforeFailure n bs, answer := .ok } := by
  simp [sendThen, linkSend, h]

/-- What went out before a failure is a leading part. -/
theorem sentBeforeFailure_eq (n : Nat) (bs : List Byte) :
    ∃ j, (bs ≠ [] → j < bs.length) ∧ sentBeforeFailure n bs = bs.take j := by
  refine ⟨min n (bs.length - 1), fun h => ?_, rfl⟩
  have := List.length_pos_iff.2 h
  omega

/-- A failed one-byte send sends nothing (R201). -/
@[simp] theorem sentBeforeFailure_singleton (n : Nat) (b : Byte) : sentBeforeFailure n [b] = [] := by
  simp [sentBeforeFailure]

theorem linkRead_of_error {s : State} {n : Nat} (h : s.answer = .error n) :
    linkRead s = .failed { s with answer := .ok } := by simp [linkRead, h]

theorem linkRead_of_byte {s : State} (h : LinkWorks s) {b : Byte} {q : List Byte} (hq : s.rxq = b :: q) :
    linkRead s = .byte b { s with rxq := q, answer := .ok } := by
  rcases h with h | h <;> simp [linkRead, h, hq]

theorem linkRead_of_timeOut {s : State} (h : s.answer = .timedOut) (hq : s.rxq = [])
    (hp : s.params.waitTimeout = true) : linkRead s = .timedOut { s with answer := .ok } := by
  simp [linkRead, h, hq, hp]

/-- An access blocks when nothing is there to be read and no timeout is delivered. -/
theorem linkRead_of_empty {s : State} (h : s.answer = .ok ∨ (s.answer = .timedOut ∧ s.params.waitTimeout = false))
    (hq : s.rxq = []) : linkRead s = .blocked := by
  rcases h with h | ⟨h, hp⟩ <;> simp [linkRead, *]

/-- All that a read can answer. -/
theorem linkRead_cases (s : State) :
    (∃ n, s.answer = .error n ∧ linkRead s = .failed { s with answer := .ok }) ∨
    (∃ b q, LinkWorks s ∧ s.rxq = b :: q ∧ linkRead s = .byte b { s with rxq := q, answer := .ok }) ∨
    (s.answer = .timedOut ∧ s.rxq = [] ∧ s.params.waitTimeout = true ∧
      linkRead s = .timedOut { s with answer := .ok }) ∨
    ((s.answer = .ok ∨ (s.answer = .timedOut ∧ s.params.waitTimeout = false)) ∧ s.rxq = [] ∧
      linkRead s = .blocked) := by
  rcases linkWorks_or_fails s with h | ⟨n, h⟩
  · obtain hq | ⟨b, q, hq⟩ : s.rxq = [] ∨ ∃ b q, s.rxq = b :: q := by
      cases s.rxq with
      | nil => exact .inl rfl
      | cons b q => exact .inr ⟨b, q, rfl⟩
    · rcases h with h | h
      · exact .inr (.inr (.inr ⟨.inl h, hq, linkRead_of_empty (.inl h) hq⟩))
      · by_cases hp : s.params.waitTimeout = true
        · exact .inr (.inr (.inl ⟨h, hq, hp, linkRead_of_timeOut h hq hp⟩))
        · have hp : s.params.waitTimeout = false := by simpa using hp
          exact .inr (.inr (.inr ⟨.inr ⟨h, hp⟩, hq, linkRead_of_empty (.inr ⟨h, hp⟩) hq⟩))
    · exact .inr (.inl ⟨b, q, h, hq, linkRead_of_byte h hq⟩)
  · exact .inl ⟨n, h, linkRead_of_error h⟩

end Sys2Proof.Machine
end

