-- ==== Sys2Proof/Laws/Control.lean ====
section
/-! SUPPORT. Each shared transition of the state machine, case by case: what it answers, said once (R165 to R168, R171 to
R173). -/

namespace Sys2Proof.Machine

open Sys2Proof.Safety

/-- Accepted, the last chunk (R171). -/
theorem accepted_last {s : State} (h : (s.chunkIdx + 1).toNat = chunkCount s.imgLen.toNat) :
    accepted s = { s with
      chunkIdx := s.chunkIdx + 1, retryCnt := 0, state := .transferringChunks, phase := .waitO } := if_pos h

/-- Accepted, not the last chunk (R171). -/
theorem accepted_next {s : State} (h : (s.chunkIdx + 1).toNat ≠ chunkCount s.imgLen.toNat) :
    accepted s = { s with
      chunkIdx := s.chunkIdx + 1, retryCnt := 0, state := .transferringChunks, phase := .waitT } := if_neg h

/-- Rejected, the retries used up (R172). -/
theorem rejected_last {s : State} (h : s.cfgMaxRetries ≤ s.retryCnt + 1) :
    rejected s = raise .chunkRejectedExceededRetries { s with retryCnt := s.retryCnt + 1 } := if_pos h

/-- Rejected, a retry left (R172). -/
theorem rejected_retry {s : State} (h : ¬ s.cfgMaxRetries ≤ s.retryCnt + 1) :
    rejected s = enterPause { s with retryCnt := s.retryCnt + 1 } := if_neg h

/-- The session of an empty image (R167). -/
theorem createSession_empty {s : State} (h : chunkCount s.imgLen.toNat = 0) :
    createSession s = { s with
      chunkIdx := 0, retryCnt := 0, outcome := .inProgress, state := .transferringChunks, phase := .waitO } := if_pos h

/-- The session of an image with a chunk (R165). -/
theorem createSession_chunks {s : State} (h : chunkCount s.imgLen.toNat ≠ 0) :
    createSession s = { s with
      chunkIdx := 0, retryCnt := 0, outcome := .inProgress, state := .transferringChunks, phase := .waitT } := if_neg h

/-- An image has a chunk exactly when it has a byte (R140, R167). -/
theorem chunkCount_eq_zero {n : Nat} : chunkCount n = 0 ↔ n = 0 := by
  simp only [chunkCount, Config.chunkSize]; omega

/-- A 32-bit length makes at most 2^24 chunks, so CHUNK_IDX never wraps (R33). -/
theorem chunkCount_le (v : BitVec 32) : chunkCount v.toNat ≤ 2 ^ 24 := by
  have := v.isLt
  simp only [chunkCount, Config.chunkSize]; omega

/-- CHUNK_IDX below the chunk count is incremented without wrapping (R33, R171). -/
theorem toNat_chunkIdx_succ {k v : BitVec 32} (h : k.toNat < chunkCount v.toNat) : (k + 1).toNat = k.toNat + 1 := by
  have := chunkCount_le v
  bv_omega

/-- RETRY_CNT below CFG_MAX_RETRIES is incremented without wrapping (R34, R172). -/
theorem toNat_retryCnt_succ {r m : BitVec 8} (h : r < m) : (r + 1).toNat = r.toNat + 1 := by
  have := BitVec.lt_def.1 h
  have := m.isLt
  bv_omega

/-- Sending `P`: it goes out and the wait for `K` begins, or the session aborts (R162, R178). -/
theorem sendP_cases (s : State) :
    (LinkWorks s ∧ sendP s = moveTo .awaitingLinkReady .waitK { s with txh := s.txh ++ [Config.codeByte .p], answer := .ok }) ∨
    (∃ n, s.answer = .error n ∧ sendP s = raise .linkUnavailable { s with answer := .ok }) := by
  rcases linkWorks_or_fails s with h | ⟨n, h⟩
  · exact .inl ⟨h, sendThen_of_works h _ _⟩
  · refine .inr ⟨n, h, ?_⟩
    rw [sendP, sendThen_of_error h, sentBeforeFailure_singleton, List.append_nil]

/-- Sending `R`: it goes out and the session is created, or the session aborts (R165, R178). -/
theorem sendR_cases (s : State) :
    (LinkWorks s ∧ sendR s = createSession { s with txh := s.txh ++ [Config.codeByte .r], answer := .ok }) ∨
    (∃ n, s.answer = .error n ∧ sendR s = raise .linkUnavailable { s with answer := .ok }) := by
  rcases linkWorks_or_fails s with h | ⟨n, h⟩
  · exact .inl ⟨h, sendThen_of_works h _ _⟩
  · refine .inr ⟨n, h, ?_⟩
    rw [sendR, sendThen_of_error h, sentBeforeFailure_singleton, List.append_nil]

/-- Sending a frame: all of it goes out and the wait for the answer begins, or a leading part goes out and the session
aborts, the buffers overwritten either way (R168, R178, R231). -/
theorem sendFrame_cases (c : List Byte) (s : State) :
    (LinkWorks s ∧ sendFrame c s =
      moveTo .transferringChunks .waitResp
        { loadChunk c s with txh := s.txh ++ encodeFrame c, answer := .ok }) ∨
    (∃ n, s.answer = .error n ∧ sendFrame c s =
      raise .linkUnavailable
        { loadChunk c s with txh := s.txh ++ sentBeforeFailure n (encodeFrame c), answer := .ok }) := by
  rcases linkWorks_or_fails s with h | ⟨n, h⟩
  · exact .inl ⟨h, sendThen_of_works (s := loadChunk c s) h _ _⟩
  · exact .inr ⟨n, h, sendThen_of_error (s := loadChunk c s) h _ _⟩

/-- What reset leaves of a frame being sent: a leading part of the current chunk's frame, or nothing where no frame is
being sent (R251; log entry 11). -/
theorem cutFrame_cases (cut : Nat) (s : State) :
    (∃ c, (s.state = .transferringChunks ∧ s.phase = .sendFrame ∧ s.chunkIdx.toNat < imageChunks s ∧
      currentChunk s = some c) ∧ cutFrame cut s = (encodeFrame c).take (min cut 258)) ∨
    (¬ (s.state = .transferringChunks ∧ s.phase = .sendFrame ∧ s.chunkIdx.toNat < imageChunks s ∧
      currentChunk s ≠ none) ∧ cutFrame cut s = []) := by
  by_cases h : s.state = .transferringChunks ∧ s.phase = .sendFrame ∧ s.chunkIdx.toNat < imageChunks s
  · obtain ⟨hs, hp, hk⟩ := h
    rcases hc : currentChunk s with _ | c
    · exact .inr ⟨fun h => h.2.2.2 rfl, by simp [cutFrame, hs, hp, hc]⟩
    · exact .inl ⟨c, ⟨hs, hp, hk, rfl⟩, by
        simp [cutFrame, hs, hp, hk, hc, sentBeforeFailure, length_encodeFrame (length_currentChunk hc).2]⟩
  · refine .inr ⟨fun h' => h ⟨h'.1, h'.2.1, h'.2.2.1⟩, ?_⟩
    unfold cutFrame
    split
    · exact if_neg fun hk => h ⟨‹_›, ‹_›, hk⟩
    · rfl

/-- Building a frame keeps the buffers in canonical form (R60). -/
theorem memories_buildFrame {s : State} {c : List Byte} (hc : c.length ≤ 256) (h : MemoriesLegal s) :
    MemoriesLegal (buildFrame c s) :=
  ⟨h.1, Memory.wf_writeBytes h.2 (by rw [length_encodeFrame hc]), h.3⟩

/-- Loading a chunk keeps the buffers in canonical form (R60). -/
theorem memories_loadChunk {s : State} {c : List Byte} (hc : c.length ≤ 256) (h : MemoriesLegal s) :
    MemoriesLegal (loadChunk c s) :=
  memories_buildFrame hc ⟨Memory.wf_writeBytes h.1 (by simpa [Config.chunkSize] using hc), h.2, h.3⟩

/-- The memories after reset are in canonical form: nothing is listed. -/
theorem memories_reset : MemoriesLegal State.reset := ⟨Memory.wf_nil _, Memory.wf_nil _, Memory.wf_nil _⟩

/-- CB_LEN after loading a chunk is the chunk's length (R168). -/
theorem cbLen_loadChunk {s : State} {c : List Byte} (hc : c.length ≤ 256) : (loadChunk c s).cbLen.toNat = c.length := by
  simp [loadChunk, buildFrame]; omega

end Sys2Proof.Machine
end

