-- ==== Sys2Proof/Laws/Crc.lean ====
section
/-! SUPPORT. The laws of the checksum unit: eight bit steps are `crc_bit` repeated, the checksum continues over a
concatenation, and a bit step is linear over XOR. -/

namespace Sys2Proof.Machine

@[simp] theorem crcBits_zero (a : U16) : crcBits 0 a = a := rfl

/-- One more bit step is one `crc_bit` first (R121). -/
theorem crcBits_succ (n : Nat) (a : U16) : crcBits (n + 1) a = crcBits n (crcBit a) := by
  simp only [crcBits, crcBit]
  split <;> rfl

@[simp] theorem crcFold_nil (a : U16) : crcFold a [] = a := rfl

@[simp] theorem crcFold_cons (a : U16) (b : Byte) (bs : List Byte) :
    crcFold a (b :: bs) = crcFold (crcByte a b) bs := rfl

theorem crcFold_append (a : U16) (s t : List Byte) : crcFold a (s ++ t) = crcFold (crcFold a s) t := by
  simp [crcFold]

/-- The empty input leaves the initial value (R123 (d)). -/
@[simp] theorem checksum_nil : checksum [] = Config.crcInit := rfl

theorem crcBit_of_even {a : U16} (h : a.getLsbD 0 = false) : crcBit a = a >>> 1 := by
  simp only [crcBit, h, Bool.false_eq_true, if_false]

theorem crcBit_of_odd {a : U16} (h : a.getLsbD 0 = true) : crcBit a = a >>> 1 ^^^ Config.crcPoly := by
  simp only [crcBit, h, if_true]

/-- A bit step is linear over XOR: both of its branches are. -/
theorem crcBit_xor (a b : U16) : crcBit (a ^^^ b) = crcBit a ^^^ crcBit b := by
  have key : ∀ x y p : U16, (x ^^^ y) ^^^ p = (x ^^^ p) ^^^ y := fun x y p => by
    rw [BitVec.xor_assoc, BitVec.xor_comm y p, ← BitVec.xor_assoc]
  cases ha : a.getLsbD 0 <;> cases hb : b.getLsbD 0
  · rw [crcBit_of_even ha, crcBit_of_even hb, crcBit_of_even (by rw [BitVec.getLsbD_xor, ha, hb]; rfl)]
    exact BitVec.ushiftRight_xor_distrib ..
  · rw [crcBit_of_even ha, crcBit_of_odd hb, crcBit_of_odd (by rw [BitVec.getLsbD_xor, ha, hb]; rfl),
      BitVec.ushiftRight_xor_distrib, BitVec.xor_assoc]
  · rw [crcBit_of_odd ha, crcBit_of_even hb, crcBit_of_odd (by rw [BitVec.getLsbD_xor, ha, hb]; rfl),
      BitVec.ushiftRight_xor_distrib, key]
  · rw [crcBit_of_odd ha, crcBit_of_odd hb, crcBit_of_even (by rw [BitVec.getLsbD_xor, ha, hb]; rfl),
      BitVec.ushiftRight_xor_distrib, key, BitVec.xor_assoc, BitVec.xor_assoc, BitVec.xor_self,
      BitVec.xor_zero]

theorem crcBits_xor (n : Nat) (a b : U16) : crcBits n (a ^^^ b) = crcBits n a ^^^ crcBits n b := by
  induction n generalizing a b with
  | zero => rfl
  | succ n ih => simp only [crcBits_succ, crcBit_xor, ih]

end Sys2Proof.Machine
end

