-- ==== Sys2Proof/Laws/PerInstr.lean ====
section
/-! SUPPORT. The family EncodingFormat, one lemma per constructor: an instruction is encoded in the format of its row of
the opcode table, in words of that format's size (R90, R105). -/

namespace Sys2Proof.Laws.EncodingFormat

/-- A well-formed instruction's encoding has the format of its row and the size of that format. -/
def Statement (i : Instr) : Prop :=
  i.WellFormed = true → (Sys2Proof.encode i).format = i.format ∧ (Sys2Proof.encode i).WellSized = true

theorem ctrlP : Statement .ctrlP := fun _ => ⟨rfl, rfl⟩

theorem ctrlK : Statement .ctrlK := fun _ => ⟨rfl, rfl⟩

theorem ctrlR : Statement .ctrlR := fun _ => ⟨rfl, rfl⟩

theorem ctrlT : Statement .ctrlT := fun _ => ⟨rfl, rfl⟩

theorem ctrlC : Statement .ctrlC := fun _ => ⟨rfl, rfl⟩

theorem ctrlE : Statement .ctrlE := fun _ => ⟨rfl, rfl⟩

theorem ctrlO : Statement .ctrlO := fun _ => ⟨rfl, rfl⟩

theorem ctrlF : Statement .ctrlF := fun _ => ⟨rfl, rfl⟩

theorem dataFrame (payload : List Byte) (flag : Bool) (crc : U16) : Statement (.dataFrame payload flag crc) := by
  intro h
  have h : payload.length = 256 := by simpa [Instr.WellFormed, Config.chunkSize] using h
  exact ⟨rfl, by simp [Sys2Proof.encode, Encoded.WellSized, h, Config.frameSize]⟩

theorem nop : Statement .nop := fun _ => ⟨rfl, rfl⟩

theorem crcInit : Statement .crcInit := fun _ => ⟨rfl, rfl⟩

theorem crcByte (arg : Byte) : Statement (.crcByte arg) := fun _ => ⟨rfl, rfl⟩

theorem crcBlock : Statement .crcBlock := fun _ => ⟨rfl, rfl⟩

theorem encode : Statement .encode := fun _ => ⟨rfl, rfl⟩

theorem check : Statement .check := fun _ => ⟨rfl, rfl⟩

theorem start : Statement .start := fun _ => ⟨rfl, rfl⟩

theorem clear : Statement .clear := fun _ => ⟨rfl, rfl⟩

theorem cancel : Statement .cancel := fun _ => ⟨rfl, rfl⟩

theorem reserved6 : Statement .reserved6 := fun _ => ⟨rfl, rfl⟩

theorem reserved7 : Statement .reserved7 := fun _ => ⟨rfl, rfl⟩

theorem reserved11 : Statement .reserved11 := fun _ => ⟨rfl, rfl⟩

theorem reserved12 : Statement .reserved12 := fun _ => ⟨rfl, rfl⟩

theorem reserved13 : Statement .reserved13 := fun _ => ⟨rfl, rfl⟩

theorem reserved14 : Statement .reserved14 := fun _ => ⟨rfl, rfl⟩

theorem reserved15 : Statement .reserved15 := fun _ => ⟨rfl, rfl⟩

end Sys2Proof.Laws.EncodingFormat
end

