-- ==== Sys2Proof/Laws/Step.lean ====
section
/-! SUPPORT. Everything a step can do, said once: the cases of a received byte, of the FSM's turn, of a command, of an
input and of a step that answers a next state. -/

namespace Sys2Proof.Machine

open Sys2Proof.Safety

/-- In a PHASE that reads, a control code runs as the effect of its byte, and so does a byte that is no code: the effect of
a consumed byte depends on the PHASE and the byte alone (R100). -/
theorem runByte_eq {s : State} (h : reads s = true) (b : Byte) : runByte b s = .next (receive b s) := by
  have hp : ¬ (s.state = .awaitingLinkReady ∧ s.phase = .sendP) := by rintro ⟨h1, h2⟩; simp [reads, h1, h2] at h
  have hr : ¬ (s.state = .sendingHandshake ∧ s.phase = .sendR) := by rintro ⟨h1, h2⟩; simp [reads, h1, h2] at h
  have eP : execCtrlP s = .next (receive (Config.codeByte .p) s) := by
    unfold execCtrlP; split
    · exact absurd ⟨‹_›, ‹_›⟩ hp
    · rfl
  have eR : execCtrlR s = .next (receive (Config.codeByte .r) s) := by
    unfold execCtrlR; split
    · exact absurd ⟨‹_›, ‹_›⟩ hr
    · rfl
  unfold runByte decodeCtrl
  by_cases h1 : b = Config.codeByte .p
  · subst h1; exact eP
  by_cases h2 : b = Config.codeByte .k
  · subst h2; rfl
  by_cases h3 : b = Config.codeByte .r
  · subst h3; exact eR
  by_cases h4 : b = Config.codeByte .t
  · subst h4; rfl
  by_cases h5 : b = Config.codeByte .c
  · subst h5; rfl
  by_cases h6 : b = Config.codeByte .e
  · subst h6; rfl
  by_cases h7 : b = Config.codeByte .o
  · subst h7; rfl
  by_cases h8 : b = Config.codeByte .f
  · subst h8; rfl
  simp only [if_neg h1, if_neg h2, if_neg h3, if_neg h4, if_neg h5, if_neg h6, if_neg h7, if_neg h8]

/-- What consuming a byte can do (R100). -/
inductive Received (b : Byte) (s : State) : State → Prop where
  | linkReady (hs : s.state = .awaitingLinkReady) (hp : s.phase = .waitK) (hb : b = Config.codeByte .k) :
      Received b s (moveTo .sendingHandshake .sendR s)
  | targetReady (hs : s.state = .transferringChunks) (hp : s.phase = .waitT) (hb : b = Config.codeByte .t) :
      Received b s (moveTo .transferringChunks .sendFrame s)
  | acceptedChunk (hs : s.state = .transferringChunks) (hp : s.phase = .waitResp) (hb : b = Config.codeByte .c) :
      Received b s (accepted s)
  | rejectedChunk (hs : s.state = .transferringChunks) (hp : s.phase = .waitResp) (hb : b = Config.codeByte .e) :
      Received b s (rejected s)
  | otherAnswer (hs : s.state = .transferringChunks) (hp : s.phase = .waitResp) (hc : b ≠ Config.codeByte .c)
      (he : b ≠ Config.codeByte .e) : Received b s (otherByte s)
  | writeComplete (hs : s.state = .transferringChunks) (hp : s.phase = .waitO) (hb : b = Config.codeByte .o) :
      Received b s { moveTo .complete .none s with outcome := .complete }
  | discarded : Received b s s

theorem receive_cases (b : Byte) (s : State) : Received b s (receive b s) := by
  unfold receive
  split
  · unfold receiveInWaitK; split
    · exact .linkReady ‹_› ‹_› ‹_›
    · exact .discarded
  · unfold receiveInWaitT; split
    · exact .targetReady ‹_› ‹_› ‹_›
    · exact .discarded
  · unfold receiveInWaitResp; split
    · exact .acceptedChunk ‹_› ‹_› ‹_›
    · split
      · exact .rejectedChunk ‹_› ‹_› ‹_›
      · exact .otherAnswer ‹_› ‹_› ‹_› ‹_›
  · unfold receiveInWaitO; split
    · exact .writeComplete ‹_› ‹_› ‹_›
    · exact .discarded
  · exact .discarded

/-- What a turn of the FSM can do (R160, R178, R179). -/
inductive TurnCase (s : State) : State → Prop where
  | noStep : TurnCase s s
  | sendsP (hs : s.state = .awaitingLinkReady) (hp : s.phase = .sendP) : TurnCase s (sendP s)
  | sendsR (hs : s.state = .sendingHandshake) (hp : s.phase = .sendR) : TurnCase s (sendR s)
  | sendsFrame (c : List Byte) (hs : s.state = .transferringChunks) (hp : s.phase = .sendFrame)
      (hk : s.chunkIdx.toNat < imageChunks s) (hc : currentChunk s = some c) : TurnCase s (sendFrame c s)
  | endsPause (hs : s.state = .transferringChunks) (hp : s.phase = .retryDelay) : TurnCase s (endPause s)
  | consumes (b : Byte) (q : List Byte) (hr : reads s = true) (hw : LinkWorks s) (hq : s.rxq = b :: q) :
      TurnCase s (receive b { s with rxq := q, answer := .ok })
  | readFails (n : Nat) (hr : reads s = true) (ha : s.answer = .error n) :
      TurnCase s (raise .linkUnavailable { s with answer := .ok })
  | timesOut (hr : reads s = true) (ha : s.answer = .timedOut) (hq : s.rxq = []) (hp : s.params.waitTimeout = true) :
      TurnCase s (raise .waitTimeout { s with answer := .ok })

/-- The turn of a wait phase never stops, and does one of these. -/
theorem waitTurn_cases {s : State} (h : reads s = true) : ∃ t, waitTurn s = .next t ∧ TurnCase s t := by
  unfold waitTurn
  rcases linkRead_cases s with ⟨n, ha, hl⟩ | ⟨b, q, hw, hq, hl⟩ | ⟨ha, hq, hp, hl⟩ | ⟨-, -, hl⟩ <;> rw [hl]
  · exact ⟨_, rfl, .readFails n h ha⟩
  · exact ⟨_, runByte_eq (by simpa [reads] using h) b, .consumes b q h hw hq⟩
  · exact ⟨_, rfl, .timesOut h ha hq hp⟩
  · exact ⟨_, rfl, .noStep⟩

theorem turn_cases {s t : State} (h : turn s = .next t) : TurnCase s t := by
  have wait : ∀ {u : State}, reads s = true → waitTurn s = .next u → TurnCase s u := by
    intro u hr hu
    obtain ⟨v, hv, hc⟩ := waitTurn_cases hr
    rw [hv] at hu; cases hu; exact hc
  unfold turn at h
  split at h <;> rename_i hs hp
  · simp only [exec, execCtrlP, hs, hp] at h; cases h; exact .sendsP hs hp
  · exact wait (by simp [reads, hs, hp]) h
  · simp only [exec, execCtrlR, hs, hp] at h; cases h; exact .sendsR hs hp
  · exact wait (by simp [reads, hs, hp]) h
  · have hf : exec (frameToSend s) s = execDataFrame s := by
      unfold frameToSend; split <;> rfl
    rw [hf, execDataFrame, hs, hp] at h
    simp only at h
    split at h
    · split at h
      · cases h; exact .sendsFrame _ hs hp ‹_› ‹_›
      · cases h
    · cases h
  · exact wait (by simp [reads, hs, hp]) h
  · cases h; exact .endsPause hs hp
  · exact wait (by simp [reads, hs, hp]) h
  · cases h; exact .noStep

/-- What a command can do (R106). -/
inductive CommandCase (s : State) : State → Prop where
  | nop : CommandCase s s
  | refused : CommandCase s (setCmdErr s)
  | checksums (v : U16) (hb : busy s = false) : CommandCase s { s with crcAcc := v }
  | encodes (c : List Byte) (hb : busy s = false) (hc : chunkBuffer s = some c) : CommandCase s (buildFrame c s)
  | checks (r : CheckResult) (hb : busy s = false) : CommandCase s (recordCheck r s)
  | starts (hs : s.state = .idle) : CommandCase s (moveTo .awaitingLinkReady .sendP s)
  | clears (hb : busy s = false) : CommandCase s (returnToIdle s)
  | cancels (hb : busy s = true) : CommandCase s (raise .cancelled s)

/-- A guarded step either has its effect, the guard being true, or only sets CMD_ERR. -/
theorem whenAccepted_cases {ok : Bool} {s t : State} {o : Host.Outcome State Fault Refusal}
    (h : whenAccepted ok s o = .next t) : (ok = true ∧ o = .next t) ∨ (ok = false ∧ t = setCmdErr s) := by
  cases ok
  · simp only [whenAccepted, Bool.false_eq_true, if_false, Host.Outcome.next.injEq] at h
    exact .inr ⟨rfl, h.symm⟩
  · exact .inl ⟨rfl, h⟩

theorem command_cases {w : Word} {s t : State} (h : exec (decodeCmd w) s = .next t) : CommandCase s t := by
  have res : ∀ {u : State}, reservedCommand s = .next u → CommandCase s u := by
    intro u hu; cases hu; exact .refused
  unfold decodeCmd at h
  split at h <;> simp only [exec] at h
  · cases h; exact .nop
  · rcases whenAccepted_cases h with ⟨hb, h⟩ | ⟨-, rfl⟩
    · cases h; exact .checksums _ (by simpa using hb)
    · exact .refused
  · rcases whenAccepted_cases h with ⟨hb, h⟩ | ⟨-, rfl⟩
    · cases h; exact .checksums _ (by simpa using hb)
    · exact .refused
  · rcases whenAccepted_cases h with ⟨hb, h⟩ | ⟨-, rfl⟩
    · split at h
      · cases h; exact .checksums _ (by simpa using hb)
      · cases h
    · exact .refused
  · rcases whenAccepted_cases h with ⟨hb, h⟩ | ⟨-, rfl⟩
    · split at h
      · cases h; exact .encodes _ (by simpa using hb) ‹_›
      · cases h
    · exact .refused
  · rcases whenAccepted_cases h with ⟨hb, h⟩ | ⟨-, rfl⟩
    · split at h
      · cases h; exact .checks _ (by simpa using hb)
      · cases h
    · exact .refused
  · exact res h
  · exact res h
  · rcases whenAccepted_cases h with ⟨hb, h⟩ | ⟨-, rfl⟩
    · cases h; exact .starts (by simpa using hb)
    · exact .refused
  · rcases whenAccepted_cases h with ⟨hb, h⟩ | ⟨-, rfl⟩
    · cases h; exact .clears (by simpa using hb)
    · exact .refused
  · rcases whenAccepted_cases h with ⟨hb, h⟩ | ⟨-, rfl⟩
    · cases h; exact .cancels hb
    · exact .refused
  · exact res h
  · exact res h
  · exact res h
  · exact res h
  · exact res h

/-- What a register write but of CMD can do (R40, R41). -/
inductive StoreCase (v : Word) (s : State) : State → Prop where
  | ignored : StoreCase v s s
  | refused (hb : busy s = true) : StoreCase v s (setCmdErr s)
  | flags : StoreCase v s (clearFlags v s)
  | imgLen (hb : busy s = false) : StoreCase v s { s with imgLen := v }
  | maxRetries (hb : busy s = false) : StoreCase v s { s with cfgMaxRetries := maxRetriesOfWord v }
  | retryDelay (hb : busy s = false) : StoreCase v s { s with cfgRetryDelayMs := retryDelayOfWord v }
  | cbLen (hb : busy s = false) : StoreCase v s { s with cbLen := cbLenOfWord v }

theorem whenNotBusy_cases (s w : State) :
    (busy s = true ∧ whenNotBusy s w = setCmdErr s) ∨ (busy s = false ∧ whenNotBusy s w = w) := by
  cases h : busy s <;> simp [whenNotBusy, h]

theorem regStore_cases (n : BitVec 4) (v : Word) (s : State) : StoreCase v s (regStore n v s) := by
  unfold regStore
  split
  · exact .flags
  · rcases whenNotBusy_cases s { s with imgLen := v } with ⟨hb, h⟩ | ⟨hb, h⟩ <;> rw [h]
    · exact .refused hb
    · exact .imgLen hb
  · rcases whenNotBusy_cases s { s with cfgMaxRetries := maxRetriesOfWord v } with ⟨hb, h⟩ | ⟨hb, h⟩ <;> rw [h]
    · exact .refused hb
    · exact .maxRetries hb
  · rcases whenNotBusy_cases s { s with cfgRetryDelayMs := retryDelayOfWord v } with ⟨hb, h⟩ | ⟨hb, h⟩ <;> rw [h]
    · exact .refused hb
    · exact .retryDelay hb
  · rcases whenNotBusy_cases s { s with cbLen := cbLenOfWord v } with ⟨hb, h⟩ | ⟨hb, h⟩ <;> rw [h]
    · exact .refused hb
    · exact .cbLen hb
  · exact .ignored

/-- What one input that is not the FSM's turn can do, in the state from which it has been taken. -/
inductive InputCase (s : State) : Input → State → Prop where
  | command (v : Word) {t : State} (hc : CommandCase s t) : InputCase s (.regWrite 0 v) t
  | store (n : BitVec 4) (v : Word) {t : State} (hn : n ≠ 0) (hc : StoreCase v s t) : InputCase s (.regWrite n v) t
  | regRead (n : BitVec 4) : InputCase s (.regRead n) (regRead n s)
  | bufRefused (w : Window) (i : Nat) (b : Byte) : InputCase s (.bufWrite w i b) (setCmdErr s)
  | bufWrite (w : Window) (i : Nat) (b : Byte) (hi : i < windowSize w) (hb : busy s = false) :
      InputCase s (.bufWrite w i b) (setWindow w ((windowMem w s).write i b) s)
  | bufRead (w : Window) (i : Nat) (b : Byte) (hi : i < windowSize w) (hr : (windowMem w s).read i = some b) :
      InputCase s (.bufRead w i) { s with portData := fieldAt 0 b }
  | bufReadOutside (w : Window) (i : Nat) (hi : windowSize w ≤ i) :
      InputCase s (.bufRead w i) { setCmdErr s with portData := 0 }
  | rx (b : Byte) : InputCase s (.rx b) { s with rxq := s.rxq ++ [b] }
  | errLink (n : Nat) : InputCase s (.errLink n) { s with answer := .error n }
  | timeOut : InputCase s .timeOut { s with answer := .timedOut }
  | elapse (ms : Nat) (d : Nat) : InputCase s (.elapse ms) { s with delayT := d }
  | imgPlace (a : Word) (b : Byte) (h : busy s = true → s.img.read a.toNat = some b) :
      InputCase s (.imgPlace a b) { s with img := s.img.write a.toNat b }
  | reset (cut : Nat) : InputCase s (.reset cut) (resetBlock cut s)

theorem perform_cases {s t : State} {i : Input} (hi : i ≠ .turn) (h : perform i s = .next t) : InputCase s i t := by
  cases i with
  | turn => exact absurd rfl hi
  | regWrite n v =>
    simp only [perform, regWrite] at h
    split at h
    · subst n; exact .command v (command_cases h)
    · cases h; exact .store n v ‹_› (regStore_cases n v s)
  | regRead n => cases h; exact .regRead n
  | bufWrite w j b =>
    simp only [perform, bufWrite, Host.Outcome.next.injEq] at h
    split at h
    · rcases whenNotBusy_cases s (setWindow w ((windowMem w s).write j b) s) with ⟨-, e⟩ | ⟨hb, e⟩ <;> rw [e] at h <;>
        subst h
      · exact .bufRefused w j b
      · exact .bufWrite w j b ‹_› hb
    · subst h; exact .bufRefused w j b
  | bufRead w j =>
    simp only [perform, bufRead] at h
    split at h
    · split at h
      · cases h; exact .bufRead w j _ ‹_› ‹_›
      · cases h
    · cases h; exact .bufReadOutside w j (by omega)
  | rx b => cases h; exact .rx b
  | errLink n => cases h; exact .errLink n
  | timeOut => cases h; exact .timeOut
  | elapse ms =>
    simp only [perform, elapse, Host.Outcome.next.injEq] at h
    split at h <;> subst h
    · exact .elapse ms _
    · exact .elapse ms s.delayT
  | imgPlace a b =>
    simp only [perform, imgPlace] at h
    split at h
    · cases h
    · cases h
      refine .imgPlace a b fun hb => ?_
      simp_all
  | reset cut => cases h; exact .reset cut

/-- Everything a step that answers a next state can be: the FSM's turn, or one input (R7). -/
theorem step_cases {s t : State} (h : step s = .next t) :
    (∃ s0, FsmMoves s s0 ∧ TurnCase s0 t) ∨
    ∃ i rest, s.inputs = i :: rest ∧ i ≠ .turn ∧ InputCase { s with inputs := rest } i t := by
  unfold step stepOnce at h
  split at h
  · exact .inl ⟨s, .inl ⟨‹_›, rfl⟩, turn_cases h⟩
  · rename_i i rest hi
    by_cases ht : i = .turn
    · subst ht
      exact .inl ⟨_, .inr ⟨rest, hi, rfl⟩, turn_cases h⟩
    · exact .inr ⟨i, rest, hi, ht, perform_cases ht h⟩

/-- When the FSM moves, the step is its turn. -/
theorem step_of_fsmMoves {s s0 : State} (h : FsmMoves s s0) : step s = turn s0 := by
  rcases h with ⟨h, rfl⟩ | ⟨rest, h, rfl⟩ <;> simp [step, stepOnce, h, perform]

/-- When the oldest input is another agent's, the step is that input. -/
theorem step_of_input {s : State} {i : Input} {rest : List Input} (h : s.inputs = i :: rest) :
    step s = perform i { s with inputs := rest } := by
  simp [step, stepOnce, h]

end Sys2Proof.Machine
end

