-- ==== Sys2Proof/Tests/Slice0.lean ====
section
/-! SUPPORT. Tests: well-formedness, decoding of words written out from the spec's tables, single steps against the
vectors of spec/95_test_vectors.md, and a witness for every obligation that has hypotheses. -/

namespace Sys2Proof.Tests

open Sys2Proof.Machine Sys2Proof.Safety

/- ## Helpers -/

/-- Whether an outcome is a next state with a property. -/
def nextIs (o : Host.Outcome State Fault Refusal) (p : State → Bool) : Bool :=
  match o with
  | .next t => p t
  | .fault _ => false
  | .refused _ => false

/-- Whether an outcome is this fault. -/
def faultIs (o : Host.Outcome State Fault Refusal) (e : Fault) : Bool :=
  match o with
  | .next _ => false
  | .fault e' => e' == e
  | .refused _ => false

/-- The state after reset at another position, in a session of 300 bytes (the image of E7 is not placed). -/
def at_ (st : FsmState) (ph : Phase) : State :=
  { State.reset with state := st, phase := ph, outcome := outcomeOf st, imgLen := 300 }

/-- `s` with one input to come. -/
def act (i : Input) (s : State) : State := { s with inputs := [i] }

/-- `s` with a command to come. -/
def cmd (w : Word) (s : State) : State := act (.regWrite 0 w) s

/-- `s` with bytes in RXQ. -/
def rx (bs : List Byte) (s : State) : State := { s with rxq := bs }

/-- What a read of register 1 gives. -/
def status (s : State) : Word := regValue 1 s

/-- The chunk of V21. -/
def chunkAB : List Byte := [0xAB]

/-- The frame of V21, byte by byte. -/
def frameAB : List Byte := 0xAB :: (List.replicate 255 0xFF ++ [0x00, 0xEF, 0x3F])

/-- The 300 bytes of E7: byte `i` is `i mod 256` (D27). -/
def image300 : Memory := Memory.cells 0 ((List.range 300).map (BitVec.ofNat 8))

/-- A state in WAIT_RESP of the one chunk of a one-byte image. -/
def oneChunk : State :=
  { at_ .transferringChunks .waitResp with imgLen := 1, img := Memory.cells 0 chunkAB }

/-- A state in Aborted. -/
def abortedState : State := { at_ .aborted .none with errCause := .cancelled, errChunk := 0 }

/- ## Well-formedness -/

/-- R98: a payload of 255 bytes, and one of 257, is no frame. -/
theorem test_wf_payload_short : (Instr.dataFrame (List.replicate 255 0) false 0).WellFormed = false := by decide +kernel
theorem test_wf_payload_long : (Instr.dataFrame (List.replicate 257 0) true 0).WellFormed = false := by decide +kernel
theorem test_wf_payload_right : (Instr.dataFrame (List.replicate 256 0) true 0).WellFormed = true := by decide +kernel

/- ## Decoding: words from R92 (binary column), R95, R106 -/

theorem test_decode_P : decode (.ctrl8 0b01010000) = .ok .ctrlP := by decide
theorem test_decode_K : decode (.ctrl8 0b01001011) = .ok .ctrlK := by decide
theorem test_decode_R : decode (.ctrl8 0b01010010) = .ok .ctrlR := by decide
theorem test_decode_T : decode (.ctrl8 0b01010100) = .ok .ctrlT := by decide
theorem test_decode_C : decode (.ctrl8 0b01000011) = .ok .ctrlC := by decide
theorem test_decode_E : decode (.ctrl8 0b01000101) = .ok .ctrlE := by decide
theorem test_decode_O : decode (.ctrl8 0b01001111) = .ok .ctrlO := by decide
theorem test_decode_F : decode (.ctrl8 0b01000110) = .ok .ctrlF := by decide
/-- R93: lower-case `k` is not `K`. -/
theorem test_decode_lower_k : decode (.ctrl8 0x6B) = .error (.notAControlCode 0x6B) := by decide
/-- V21: payload `AB` and 255 padding bytes, flag 0, checksum 0x3FEF low byte first. -/
theorem test_decode_frame :
    decode (.frame259 frameAB) = .ok (.dataFrame (0xAB :: List.replicate 255 0xFF) false 0x3FEF) := by
  decide +kernel
/-- R96: a flag byte of 2 is refused; R90: so is a sequence of 258 bytes. -/
theorem test_decode_frame_flag :
    decode (.frame259 (List.replicate 256 0 ++ [0x02, 0, 0])) = .error (.frameFlag 0x02) := by decide
theorem test_decode_frame_length :
    decode (.frame259 (List.replicate 258 0)) = .error (.frameLength 258) := by decide +kernel
theorem test_decode_nop : decode (.cmd32 0b0000) = .ok .nop := by decide
theorem test_decode_crc_init : decode (.cmd32 0b0001) = .ok .crcInit := by decide
/-- 95 section 2.5: CRC_BYTE of 0x31 is CMD 0x00003102. -/
theorem test_decode_crc_byte : decode (.cmd32 0x00003102) = .ok (.crcByte 0x31) := by decide
theorem test_decode_crc_block : decode (.cmd32 0b0011) = .ok .crcBlock := by decide
theorem test_decode_encode : decode (.cmd32 0b0100) = .ok .encode := by decide
theorem test_decode_check : decode (.cmd32 0b0101) = .ok .check := by decide
theorem test_decode_start : decode (.cmd32 0b1000) = .ok .start := by decide
theorem test_decode_clear : decode (.cmd32 0b1001) = .ok .clear := by decide
theorem test_decode_cancel : decode (.cmd32 0b1010) = .ok .cancel := by decide
theorem test_decode_reserved :
    decode (.cmd32 0b0110) = .ok .reserved6 ∧ decode (.cmd32 0b0111) = .ok .reserved7 ∧
    decode (.cmd32 0b1011) = .ok .reserved11 ∧ decode (.cmd32 0b1100) = .ok .reserved12 ∧
    decode (.cmd32 0b1101) = .ok .reserved13 ∧ decode (.cmd32 0b1110) = .ok .reserved14 ∧
    decode (.cmd32 0b1111) = .ok .reserved15 := by decide
/-- R105: bits [7:4] and [31:16] are ignored, and ARG but by CRC_BYTE. -/
theorem test_decode_ignored_bits : decode (.cmd32 0xFFFF00F8) = .ok .start ∧ decode (.cmd32 0x0000FF01) = .ok .crcInit := by
  decide

/- ## The pure functions: V41, V45, V56, V7, V9, V12b, V30 -/

theorem test_crc_bit : crcBit 0x0001 = 0xA001 ∧ crcBit 0xA001 = 0xF001 ∧ crcBit 0x8000 = 0x4000 := by decide
theorem test_crc_byte : crcByte 0x1234 0x56 = 0xE993 := by decide
theorem test_checksum_check_value :
    checksum [0x31, 0x32, 0x33, 0x34, 0x35, 0x36, 0x37, 0x38, 0x39] = 0x4B37 := by decide
theorem test_checksum_padding : checksum (List.replicate 256 0xFF) = 0x30FF := by decide +kernel
theorem test_checksum_order :
    checksum ([0x31, 0x32, 0x33, 0x34, 0x35, 0x36, 0x37, 0x38, 0x39] ++ [0x4B, 0x37]) = 0x2121 := by decide
theorem test_chunk_count :
    chunkCount 0 = 0 ∧ chunkCount 256 = 1 ∧ chunkCount 257 = 2 ∧ chunkCount (2 ^ 32 - 1) = 16777216 := by decide

/- ## The commands, one step each -/

theorem test_nop_step : nextIs (step (cmd 0 State.reset)) (· == State.reset) = true := by decide
/-- R124's example. -/
theorem test_crc_init_step :
    nextIs (step (cmd 0x00000001 { State.reset with crcAcc := 0x4B37 })) (·.crcAcc == 0xFFFF) = true := by decide
/-- 95 section 2.5, first line. -/
theorem test_crc_byte_step : nextIs (step (cmd 0x00003102 State.reset)) (·.crcAcc == 0x947E) = true := by decide
/-- V13, and V1 for the empty input. -/
theorem test_crc_block_step :
    nextIs (step (cmd 0x00000003 { State.reset with cb := Memory.cells 0 [0x01, 0x02], cbLen := 2, crcAcc := 0x40BF }))
      (·.crcAcc == 0xE181) = true := by decide
theorem test_crc_block_unwritten :
    faultIs (step (cmd 0x00000003 { State.reset with cb := Memory.cells 0 [0x01, 0x02], cbLen := 3 }))
      .unwrittenByte = true := by decide
/-- V21. -/
theorem test_encode_step :
    nextIs (step (cmd 0x00000004 { State.reset with cb := Memory.cells 0 chunkAB, cbLen := 1 }))
      (fun t => t.crcAcc == 0x3FEF && t.fb == Memory.cells 0 frameAB && t.cbLen == 1) = true := by decide +kernel
/-- V20: CB_LEN = 0. -/
theorem test_encode_empty :
    nextIs (step (cmd 0x00000004 State.reset))
      (fun t => t.crcAcc == 0x30FF && t.fb.readBytes 256 3 == some [0x00, 0xFF, 0x30]) = true := by decide +kernel
/-- V32. -/
theorem test_check_step :
    nextIs (step (cmd 0x00000005 { State.reset with fb := Memory.cells 0 frameAB }))
      (fun t => regValue 12 t == 0x3FEF0003 && t.crcAcc == 0x3FEF) = true := by decide +kernel
/-- V38 with the illegal flag of V36: checksum bytes swapped, flag 7. -/
theorem test_check_bad :
    nextIs (step (cmd 0x00000005
      { State.reset with fb := (Memory.cells 0 frameAB).writeBytes 256 [0x07, 0x3F, 0xEF] }))
      (fun t => regValue 12 t == 0xEF3F0700) = true := by decide +kernel
/-- P1, second line. -/
theorem test_start_step : nextIs (step (cmd 0x00000008 State.reset)) (status · == 0x00001011) = true := by decide
/-- P10, first line. -/
theorem test_start_refused :
    nextIs (step (cmd 0x00000008 abortedState)) (fun t => regValue 2 t == 2 && status t == 0x00008305) = true := by
  decide
/-- P10: CLEAR in Aborted, and refused while BUSY. -/
theorem test_clear_step :
    nextIs (step (cmd 0x00000009 { abortedState with retryCnt := 5 }))
      (fun t => status t == 0 && regValue 3 t == 0 && t.retryCnt == 0) = true := by decide
theorem test_clear_refused :
    nextIs (step (cmd 0x00000009 (at_ .awaitingLinkReady .sendP)))
      (fun t => status t == 0x00001011 && regValue 2 t == 2) = true := by decide
/-- P10, last line: CANCEL before the session is created; and P10: refused in Aborted. -/
theorem test_cancel_step :
    nextIs (step (cmd 0x0000000A (at_ .awaitingLinkReady .sendP)))
      (fun t => status t == 0x00008305 && regValue 3 t == 5 && t.errChunk == 0) = true := by decide
theorem test_cancel_refused : nextIs (step (cmd 0x0000000A abortedState)) (regValue 2 · == 2) = true := by decide
/-- P10: a reserved OP. -/
theorem test_reserved_step :
    [0x6#32, 0x7#32, 0xB#32, 0xC#32, 0xD#32, 0xE#32, 0xF#32].all
      (fun w => nextIs (step (cmd w abortedState)) (· == { abortedState with cmdErr := true })) = true := by decide

/- ## The control codes and the frame, one step each (section 4.1 and 4.2 of 95) -/

/-- R162's example. -/
theorem test_P_step :
    nextIs (step (at_ .awaitingLinkReady .sendP)) (fun t => t.txh == [0x50] && status t == 0x00001021) = true := by decide
/-- P8 (c). -/
theorem test_P_fails :
    nextIs (step { at_ .awaitingLinkReady .sendP with answer := .error 7 })
      (fun t => t.txh == [] && t.errCause == .linkUnavailable && status t == 0x00008305) = true := by decide
theorem test_K_step :
    nextIs (step (rx [0x4B, 0x54] (at_ .awaitingLinkReady .waitK)))
      (fun t => status t == 0x00001032 && t.rxq == [0x54]) = true := by decide
/-- R93: `0x6B` is discarded without a trace. -/
theorem test_K_lower :
    nextIs (step (rx [0x6B] (at_ .awaitingLinkReady .waitK))) (· == at_ .awaitingLinkReady .waitK) = true := by decide
/-- R165's example; R167 for the empty image. -/
theorem test_R_step :
    nextIs (step (at_ .sendingHandshake .sendR)) (fun t => t.txh == [0x52] && status t == 0x00001143) = true := by decide
theorem test_R_empty :
    nextIs (step { at_ .sendingHandshake .sendR with imgLen := 0 }) (status · == 0x00001183) = true := by decide
theorem test_T_step :
    nextIs (step (rx [0x54] (at_ .transferringChunks .waitT))) (status · == 0x00001153) = true := by decide
/-- A `T` in WAIT_RESP is an other byte (P13). -/
theorem test_T_in_waitResp :
    nextIs (step (rx [0x54] (at_ .transferringChunks .waitResp)))
      (fun t => t.protoViol && t.retryCnt == 1 && status t == 0x00001173) = true := by decide
theorem test_C_next :
    nextIs (step (rx [0x43] { at_ .transferringChunks .waitResp with retryCnt := 4 }))
      (fun t => t.chunkIdx == 1 && t.retryCnt == 0 && status t == 0x00001143) = true := by decide
/-- R171's example. -/
theorem test_C_last :
    nextIs (step (rx [0x43] { at_ .transferringChunks .waitResp with chunkIdx := 1 }))
      (fun t => t.chunkIdx == 2 && status t == 0x00001183) = true := by decide
/-- R172's example, both lines. -/
theorem test_E_retry :
    nextIs (step (rx [0x45] { at_ .transferringChunks .waitResp with retryCnt := 3 }))
      (fun t => t.retryCnt == 4 && !t.protoViol && status t == 0x00001173) = true := by decide
theorem test_E_aborts :
    nextIs (step (rx [0x45] { at_ .transferringChunks .waitResp with retryCnt := 4, chunkIdx := 1 }))
      (fun t => t.retryCnt == 5 && t.errCause == .chunkRejectedExceededRetries && t.errChunk == 1 &&
        status t == 0x00008305) = true := by decide
theorem test_O_step :
    nextIs (step (rx [0x4F] { at_ .transferringChunks .waitO with chunkIdx := 2 }))
      (fun t => t.chunkIdx == 2 && status t == 0x00004204) = true := by decide
/-- P13: an `O` in WAIT_T is discarded. -/
theorem test_O_in_waitT :
    nextIs (step (rx [0x4F] (at_ .transferringChunks .waitT))) (· == at_ .transferringChunks .waitT) = true := by decide
/-- P4f: `Z` under FATAL. -/
theorem test_Z_fatal :
    nextIs (step (rx [0x5A] { at_ .transferringChunks .waitResp with params := { respOther := .fatal, waitTimeout := false } }))
      (fun t => t.protoViol && t.retryCnt == 0 && regValue 3 t == 3 && status t == 0x00008305) = true := by decide
/-- P4e: `F` under DISCARD. -/
theorem test_F_discard :
    nextIs (step (rx [0x46] { at_ .transferringChunks .waitResp with params := { respOther := .discard, waitTimeout := false } }))
      (fun t => !t.protoViol && t.retryCnt == 0 && status t == 0x00001163) = true := by decide
/-- R168's example, chunk 1 of the image of E7: V27. -/
theorem test_frame_step :
    nextIs (step { at_ .transferringChunks .sendFrame with img := image300, chunkIdx := 1 })
      (fun t => t.txh == (List.range 44).map (BitVec.ofNat 8) ++ List.replicate 212 0xFF ++ [0x00, 0x47, 0x21] &&
        t.cbLen == 44 && t.crcAcc == 0x2147 && status t == 0x00001163) = true := by decide +kernel
/-- P8 (a): the send of `frame(0)` fails after 100 bytes. -/
theorem test_frame_fails :
    nextIs (step { at_ .transferringChunks .sendFrame with img := image300, answer := .error 100 })
      (fun t => t.txh == (List.range 100).map (BitVec.ofNat 8) && t.crcAcc == 0xDE6C && t.errCause == .linkUnavailable &&
        t.fb.readBytes 256 3 == some [0x01, 0x6C, 0xDE] && status t == 0x00008305) = true := by decide +kernel

/- ## The other steps -/

/-- R174's example. -/
theorem test_pause_step :
    nextIs (step (at_ .transferringChunks .retryDelay)) (fun t => status t == 0x00001143 && t.rxq == []) = true := by decide
/-- P8 (b): a failed read consumes nothing. -/
theorem test_read_fails :
    nextIs (step (rx [0x54] { at_ .transferringChunks .waitT with answer := .error 0, chunkIdx := 1 }))
      (fun t => t.errCause == .linkUnavailable && t.errChunk == 1 && t.rxq == [0x54]) = true := by decide
/-- 95 section 4.3: a write of 0x100 to CFG_MAX_RETRIES stores 1; R23: 257 in CB_LEN stores 256. -/
theorem test_max_retries_write :
    nextIs (step (act (.regWrite 8 0x100) State.reset)) (regValue 8 · == 1) = true := by decide
theorem test_cb_len_write :
    nextIs (step (act (.regWrite 11 0x101) State.reset)) (regValue 11 · == 256) = true := by decide
/-- R62: an index out of range. -/
theorem test_window_outside :
    nextIs (step (act (.bufWrite .fb 259 0) State.reset)) (fun t => t.cmdErr && t.fb == []) = true := by decide
/-- R251: reset keeps RXQ and TXH. -/
theorem test_reset_step :
    nextIs (step (act (.reset 0) { abortedState with rxq := [0x54], txh := [0x50] }))
      (· == { State.reset with rxq := [0x54], txh := [0x50] }) = true := by decide

/- ## How a word is placed for the next step (log entry 14) -/

theorem test_place_K :
    nextIs (step (State.reset.withFetchWord 8 0x4B)) (status · == 0x00001032) = true := by decide
theorem test_place_start :
    nextIs (step (State.reset.withFetchWord 8 0x08)) (status · == 0x00001011) = true := by decide
theorem test_place_crc_byte :
    nextIs (step (State.reset.withFetchWord 32 0x00003102)) (·.crcAcc == 0x947E) = true := by decide
theorem test_place_frame :
    nextIs (step (State.reset.withFetchWord 0 0)) (fun t => t.txh.length == 259 && t.phase == .waitResp) = true := by
  decide +kernel

/- ## Witnesses: for each obligation with hypotheses, a state and operands that meet them, clause by clause -/

/-- A next state with a property exists. -/
theorem exists_of_nextIs {o : Host.Outcome State Fault Refusal} {p : State → Bool} (h : nextIs o p = true) :
    ∃ t, o = .next t ∧ p t = true := by
  cases o with
  | next t => exact ⟨t, rfl, h⟩
  | fault e => cases h
  | refused e => cases h

/-- CB full. -/
def full : State := { State.reset with cb := Memory.cells 0 (List.replicate 256 0x55), cbLen := 256 }

/-- CB_LEN at its maximum, CB unwritten. -/
def emptyBuffers : State := { State.reset with cbLen := 256 }

/-- The wait for `O` of an empty image. -/
def waitO : State := { at_ .transferringChunks .waitO with imgLen := 0 }

/-- The session of one byte `AB`, about to send `P`, with the answers of a good target queued. -/
def session : State :=
  { at_ .awaitingLinkReady .sendP with imgLen := 1, img := Memory.cells 0 chunkAB, rxq := [0x4B, 0x54, 0x43, 0x4F] }

/-- Steps of one session, as SessionRun counts them. -/
def sessionRun : Nat → State → Option State
  | 0, s => some s
  | n + 1, s =>
    match sessionRun n s with
    | none => none
    | some t =>
      if busy t then
        match step t with
        | .next u => some u
        | .fault _ => none
        | .refused _ => none
      else none

theorem sessionRun_sound {s t : State} {n : Nat} (h : sessionRun n s = some t) : SessionRun s t := by
  induction n generalizing t with
  | zero => cases h; exact .start
  | succ n ih =>
    simp only [sessionRun] at h
    split at h
    · cases h
    · split at h
      · split at h
        · cases h; exact .next (ih ‹_›) ‹_› ‹_›
        · cases h
        · cases h
      · cases h

theorem inv_emptyBuffers : Inv emptyBuffers := by
  refine ⟨?_, ?_, ⟨?_, ?_, ?_, ?_⟩, ⟨?_, ?_⟩, ?_, ?_, ⟨?_, ?_, ?_⟩⟩ <;> decide

theorem inv_reset : Inv State.reset := by
  refine ⟨?_, ?_, ⟨?_, ?_, ?_, ?_⟩, ⟨?_, ?_⟩, ?_, ?_, ⟨?_, ?_, ?_⟩⟩ <;> decide

theorem inv_waitO : Inv (rx [0x4F] waitO) := by
  refine ⟨?_, ?_, ⟨?_, ?_, ?_, ?_⟩, ⟨?_, ?_⟩, ?_, ?_, ⟨?_, ?_, ?_⟩⟩ <;> decide

theorem inv_complete (i : Input) : Inv (act i (at_ .complete .none)) := by
  refine ⟨?_, ?_, ⟨?_, ?_, ?_, ?_⟩, ⟨?_, ?_⟩, ?_, ?_, ⟨?_, ?_, ?_⟩⟩ <;>
    simp [act, at_, State.reset, legalPosition, outcomeOf, beforeSession, Config.defaultMaxRetries, Memory.wf]

theorem inv_aborted (i : Input) : Inv (act i abortedState) := by
  refine ⟨?_, ?_, ⟨?_, ?_, ?_, ?_⟩, ⟨?_, ?_⟩, ?_, ?_, ⟨?_, ?_, ?_⟩⟩ <;>
    simp [act, abortedState, at_, State.reset, legalPosition, outcomeOf, beforeSession, Config.defaultMaxRetries,
      Memory.wf]

theorem inv_session : Inv session := by
  refine ⟨?_, ?_, ⟨?_, ?_, ?_, ?_⟩, ⟨?_, ?_⟩, ?_, ?_, ⟨?_, ?_, ?_⟩⟩ <;> decide

theorem inv_lastAttempt : Inv (rx [0x45] { oneChunk with cfgMaxRetries := 1 }) := by
  refine ⟨?_, ?_, ⟨?_, ?_, ?_, ?_⟩, ⟨?_, ?_⟩, ?_, ?_, ⟨?_, ?_, ?_⟩⟩ <;> decide

theorem witness_EncodeThenDecodeGivesInstruction :
    (Instr.dataFrame (List.replicate 256 0xFF) true 0x30FF).WellFormed = true ∧ (Instr.crcByte 0xFF).WellFormed = true := by
  decide +kernel

theorem witness_ControlCodeIsExactByteMatch :
    decode (.ctrl8 0x46) = .ok .ctrlF ∧ Instr.ctrlF.format = .ctrl8 ∧ encode .ctrlF = .ctrl8 0x46 := by decide

theorem witness_FrameDecodingIsExact :
    decode (.frame259 frameAB) = .ok (.dataFrame (0xAB :: List.replicate 255 0xFF) false 0x3FEF) ∧
    (List.replicate 260 (0 : Byte)).length ≠ 259 ∧
    (List.replicate 256 (0 : Byte)).length = 256 ∧ (0x02 : Byte) ≠ 0x00 ∧ (0x02 : Byte) ≠ 0x01 := by decide +kernel

theorem witness_CommandIgnoresUnusedBits :
    (∀ i, i < 4 → (0xFFFF31F2 : Word).getLsbD i = (0x00003102 : Word).getLsbD i) ∧
    (∀ i, 8 ≤ i → i < 16 → (0xFFFF31F2 : Word).getLsbD i = (0x00003102 : Word).getLsbD i) := by
  constructor
  · decide
  · intro i h1 h2
    interval_cases i <;> decide

theorem witness_CrcByteIsEightBitSteps :
    (0xFFFF : U16).getLsbD 0 = true ∧ (0x8000 : U16).getLsbD 0 = false := by decide

theorem witness_ChunkCountIsCeiling : 2 ^ 32 - 1 < 2 ^ 32 := by decide

theorem witness_ChunksConcatenateToImage :
    ∃ (img : Memory) (bytes : List Byte), img.wf Config.imageSize ∧ img.readBytes 0 257 = some bytes :=
  ⟨Memory.cells 0 (List.replicate 257 0xAA), List.replicate 257 0xAA, by decide +kernel, by decide +kernel⟩

theorem witness_EncodedFrameLayout :
    (List.replicate 256 (0 : Byte)).length ≤ 256 ∧ (255 : Nat) < (List.replicate 256 (0 : Byte)).length ∧
    (List.replicate 255 (0 : Byte)).length ≤ 255 ∧ 255 < 256 := by decide +kernel

theorem witness_CheckOfEncodeSucceeds : (List.replicate 256 (0 : Byte)).length ≤ 256 := by decide +kernel

theorem witness_FlagByteIsNotProtected : ([] : List Byte).length ≤ 256 := by decide

theorem witness_NopChangesNothing : (0xFFFFFFF0 : Word).toNat % 16 = 0 := by decide

theorem witness_CrcInitSetsAccumulator :
    (0xFFFFFFF1 : Word).toNat % 16 = 1 ∧ busy State.reset = false ∧ busy (at_ .transferringChunks .waitO) = true := by
  decide

theorem witness_CrcByteContinuesAccumulator :
    (0xFFFFFFF2 : Word).toNat % 16 = 2 ∧ busy (at_ .complete .none) = false ∧
    busy (at_ .awaitingLinkReady .sendP) = true := by decide

theorem witness_CrcBlockChecksumsChunkBuffer :
    (0xFFFFFFF3 : Word).toNat % 16 = 3 ∧ full.cb.readBytes 0 full.cbLen.toNat = some (List.replicate 256 0x55) ∧
    busy full = false ∧ State.reset.cb.readBytes 0 State.reset.cbLen.toNat = some [] ∧
    busy { full with state := .transferringChunks } = true := by decide +kernel

theorem witness_EncodeBuildsFrame :
    (0xFFFFFFF4 : Word).toNat % 16 = 4 ∧ busy full = false ∧ full.cbLen.toNat ≤ 256 ∧
    full.cb.readBytes 0 full.cbLen.toNat = some (List.replicate 256 0x55) ∧
    busy { full with state := .transferringChunks } = true := by decide +kernel

theorem witness_CheckRecordsResult :
    (0xFFFFFFF5 : Word).toNat % 16 = 5 ∧ busy State.reset = false ∧
    ((0xAB : Byte) :: List.replicate 255 0xFF).length = 256 ∧
    (Memory.cells 0 frameAB).readBytes 0 259 = some ((0xAB :: List.replicate 255 0xFF) ++ [0x00, 0xEF, 0x3F]) ∧
    busy (at_ .sendingHandshake .sendR) = true := by decide +kernel

theorem witness_UnwrittenByteStops :
    Inv emptyBuffers ∧ busy emptyBuffers = false ∧ 255 < emptyBuffers.cbLen.toNat ∧ emptyBuffers.cb.read 255 = none ∧
    258 < 259 ∧ emptyBuffers.fb.read 258 = none := ⟨inv_emptyBuffers, by decide⟩

theorem witness_StartFromIdle :
    (0xFFFFFFF8 : Word).toNat % 16 = 8 ∧ State.reset.state = .idle ∧ (at_ .complete .none).state ≠ .idle := by decide

theorem witness_ClearReturnsToIdle :
    (0xFFFFFFF9 : Word).toNat % 16 = 9 ∧ busy abortedState = false ∧ busy (at_ .sendingHandshake .sendR) = true := by decide

theorem witness_CancelAborts :
    (0xFFFFFFFA : Word).toNat % 16 = 10 ∧ busy (at_ .transferringChunks .sendFrame) = true ∧
    busy State.reset = false := by decide

theorem witness_RefusedCommandsOnlySetCmdErr :
    (0xFFFFFFFF : Word).toNat % 16 ∈ [6, 7, 11, 12, 13, 14, 15] ∧ busy (at_ .transferringChunks .waitResp) = true ∧
    (at_ .transferringChunks .waitResp).state ≠ .idle ∧ busy State.reset = false := by decide

theorem witness_SendPThenWaitForK :
    ∃ s : State, s.state = .awaitingLinkReady ∧ s.phase = .sendP ∧ LinkWorks s ∧
      ∃ u : State, u.state = .awaitingLinkReady ∧ u.phase = .sendP ∧ u.answer = .error 1 :=
  ⟨at_ .awaitingLinkReady .sendP, rfl, rfl, .inl rfl,
    { at_ .awaitingLinkReady .sendP with answer := .error 1 }, rfl, rfl, rfl⟩

theorem witness_SendRCreatesSession :
    ∃ s : State, s.state = .sendingHandshake ∧ s.phase = .sendR ∧ LinkWorks s ∧
      ∃ u : State, u.state = .sendingHandshake ∧ u.phase = .sendR ∧ u.answer = .error 0 :=
  ⟨{ at_ .sendingHandshake .sendR with answer := .timedOut }, rfl, rfl, .inr rfl,
    { at_ .sendingHandshake .sendR with answer := .error 0 }, rfl, rfl, rfl⟩

theorem witness_AwaitedCodeMovesOn :
    (at_ .awaitingLinkReady .waitK).state = .awaitingLinkReady ∧ (at_ .awaitingLinkReady .waitK).phase = .waitK ∧
    (at_ .transferringChunks .waitT).state = .transferringChunks ∧ (at_ .transferringChunks .waitT).phase = .waitT ∧
    (at_ .transferringChunks .waitO).state = .transferringChunks ∧ (at_ .transferringChunks .waitO).phase = .waitO := by
  decide

theorem witness_OtherCodesAreDiscarded :
    (at_ .awaitingLinkReady .waitK).state = .awaitingLinkReady ∧ (at_ .awaitingLinkReady .waitK).phase = .waitK ∧
    (at_ .transferringChunks .waitT).phase = .waitT ∧ (at_ .transferringChunks .waitO).phase = .waitO ∧
    reads (at_ .transferringChunks .retryDelay) = false ∧ reads abortedState = false := by decide

theorem witness_AcceptedAdvancesChunk :
    oneChunk.state = .transferringChunks ∧ oneChunk.phase = .waitResp := by decide

theorem witness_RejectedCountsThenAborts :
    oneChunk.state = .transferringChunks ∧ oneChunk.phase = .waitResp ∧
    ({ oneChunk with retryCnt := 4 } : State).cfgMaxRetries ≤ ({ oneChunk with retryCnt := 4 } : State).retryCnt + 1 ∧
    ({ oneChunk with retryCnt := 3 } : State).retryCnt + 1 < ({ oneChunk with retryCnt := 3 } : State).cfgMaxRetries := by
  decide

theorem witness_OtherAnswerFollowsPolicy :
    oneChunk.state = .transferringChunks ∧ oneChunk.phase = .waitResp ∧ oneChunk.params.respOther = .reject ∧
    oneChunk.retryCnt + 1 < oneChunk.cfgMaxRetries ∧
    ({ oneChunk with retryCnt := 4 } : State).cfgMaxRetries ≤ ({ oneChunk with retryCnt := 4 } : State).retryCnt + 1 ∧
    ({ respOther := .discard, waitTimeout := false } : Params).respOther = .discard ∧
    ({ respOther := .fatal, waitTimeout := false } : Params).respOther = .fatal := by decide

theorem witness_DataFrameBuildsAndSends :
    ∃ (s : State) (c : List Byte), s.state = .transferringChunks ∧ s.phase = .sendFrame ∧
      s.chunkIdx.toNat < chunkCount s.imgLen.toNat ∧ chunkOf s.img s.imgLen.toNat s.chunkIdx.toNat = some c ∧
      LinkWorks s :=
  ⟨{ oneChunk with phase := .sendFrame }, chunkAB, by decide, by decide, by decide, by decide, .inl rfl⟩

theorem witness_FailedFrameSendAborts :
    ∃ (s : State) (c : List Byte), s.state = .transferringChunks ∧ s.phase = .sendFrame ∧
      s.chunkIdx.toNat < chunkCount s.imgLen.toNat ∧ chunkOf s.img s.imgLen.toNat s.chunkIdx.toNat = some c ∧
      s.answer = .error 258 :=
  ⟨{ oneChunk with phase := .sendFrame, answer := .error 258 }, chunkAB, by decide, by decide, by decide, by decide, rfl⟩

theorem witness_DataFrameOnlyInSendFrame :
    ¬ (oneChunk.state = .transferringChunks ∧ oneChunk.phase = .sendFrame) ∧
    chunkCount oneChunk.imgLen.toNat ≤ (1 : BitVec 32).toNat ∧ (0 : BitVec 32).toNat < chunkCount oneChunk.imgLen.toNat ∧
    chunkOf [] oneChunk.imgLen.toNat (0 : BitVec 32).toNat = none := by decide

theorem witness_StepRunsDecodedInstruction :
    (cmd 0x8 State.reset).inputs = [.regWrite 0 0x8] ∧ decode (.cmd32 0x8) = .ok .start ∧
    FsmMoves (rx [0x4B] (at_ .awaitingLinkReady .waitK)) (rx [0x4B] (at_ .awaitingLinkReady .waitK)) ∧
    reads (rx [0x4B] (at_ .awaitingLinkReady .waitK)) = true ∧ LinkWorks (rx [0x4B] (at_ .awaitingLinkReady .waitK)) ∧
    decode (.ctrl8 0x4B) = .ok .ctrlK ∧
    FsmMoves (act .turn (at_ .awaitingLinkReady .sendP)) (at_ .awaitingLinkReady .sendP) ∧
    FsmMoves (act .turn (at_ .sendingHandshake .sendR)) (at_ .sendingHandshake .sendR) ∧
    FsmMoves { oneChunk with phase := .sendFrame } { oneChunk with phase := .sendFrame } ∧
    chunkOf oneChunk.img oneChunk.imgLen.toNat oneChunk.chunkIdx.toNat = some chunkAB ∧
    decode (.frame259 (encodeFrame chunkAB)) = .ok (.dataFrame (0xAB :: List.replicate 255 0xFF) false 0x3FEF) :=
  ⟨rfl, by decide, .inl ⟨rfl, rfl⟩, by decide, .inl rfl, by decide, .inr ⟨[], rfl, rfl⟩, .inr ⟨[], rfl, rfl⟩,
    .inl ⟨rfl, rfl⟩, by decide, by decide +kernel⟩

theorem witness_EveryOtherByteActsLikeF :
    ∃ s : State, FsmMoves s s ∧ reads s = true ∧ LinkWorks s ∧ s.rxq = [0x63] ∧ (0x63 : Byte) ∉ awaited s.phase :=
  ⟨rx [0x63] oneChunk, .inl ⟨rfl, rfl⟩, by decide, .inl rfl, rfl, by decide⟩

theorem witness_FailedWaitsAbort :
    ∃ s u v : State, (FsmMoves s s ∧ reads s = true ∧ s.answer = .error 0) ∧
      (FsmMoves u u ∧ reads u = true ∧ u.answer = .timedOut ∧ u.rxq = [] ∧ u.params.waitTimeout = true) ∧
      (FsmMoves v v ∧ reads v = true ∧ v.answer = .timedOut ∧ v.rxq = [] ∧ v.params.waitTimeout = false) :=
  ⟨{ oneChunk with answer := .error 0 },
    { oneChunk with answer := .timedOut, params := { respOther := .reject, waitTimeout := true } },
    { oneChunk with answer := .timedOut },
    ⟨.inl ⟨rfl, rfl⟩, by decide, rfl⟩, ⟨.inl ⟨rfl, rfl⟩, by decide, rfl, rfl, rfl⟩,
    ⟨.inl ⟨rfl, rfl⟩, by decide, rfl, rfl, rfl⟩⟩

theorem witness_BlockedWaitChangesNothing :
    oneChunk.inputs = [] ∧ reads oneChunk = true ∧ oneChunk.rxq = [] ∧ oneChunk.answer = .ok := by decide

theorem witness_PauseEndsInWaitT :
    ∃ s : State, FsmMoves s s ∧ s.state = .transferringChunks ∧ s.phase = .retryDelay :=
  ⟨at_ .transferringChunks .retryDelay, .inl ⟨rfl, rfl⟩, rfl, rfl⟩

theorem witness_RegisterWritesStore :
    busy State.reset = false ∧ (act (.regWrite 7 0xFFFFFFFF) State.reset).inputs = [.regWrite 7 0xFFFFFFFF] ∧
    (act (.regWrite 8 0x100) State.reset).inputs = [.regWrite 8 0x100] ∧
    (act (.regWrite 9 0xFFFFFFFF) State.reset).inputs = [.regWrite 9 0xFFFFFFFF] ∧
    (act (.regWrite 11 0x1FF) State.reset).inputs = [.regWrite 11 0x1FF] := by decide

theorem witness_WritesAreFrozenWhileBusy :
    busy oneChunk = true ∧ (11#4) ∈ [7#4, 8#4, 9#4, 11#4] ∧
    (act (.regWrite 11 1) oneChunk).inputs = [.regWrite 11 1] ∧
    (act (.bufWrite .fb 258 0) oneChunk).inputs = [.bufWrite .fb 258 0] := by decide

theorem witness_ReadOnlyRegistersIgnoreWrites :
    (15#4) ∈ [1#4, 3#4, 4#4, 5#4, 6#4, 10#4, 12#4, 13#4, 14#4, 15#4] ∧
    (act (.regWrite 15 1) oneChunk).inputs = [.regWrite 15 1] := by decide

theorem witness_FlagsAreWriteOneToClear : (act (.regWrite 2 3) oneChunk).inputs = [.regWrite 2 3] := by decide

theorem witness_RegisterReadsShowTheMap : ∀ n : BitVec 4, (act (.regRead n) oneChunk).inputs = [.regRead n] :=
  fun _ => rfl

theorem witness_BufferWindowsMoveOneByte :
    busy full = false ∧ 258 < windowSize .fb ∧ (act (.bufWrite .fb 258 7) full).inputs = [.bufWrite .fb 258 7] ∧
    windowSize .fb ≤ 259 ∧ (act (.bufWrite .fb 259 7) full).inputs = [.bufWrite .fb 259 7] ∧
    255 < windowSize .cb ∧ (windowMem .cb full).read 255 = some 0x55 ∧
    (act (.bufRead .cb 255) full).inputs = [.bufRead .cb 255] ∧
    windowSize .cb ≤ 256 ∧ (act (.bufRead .cb 256) full).inputs = [.bufRead .cb 256] := by decide +kernel

theorem witness_ResetAbandonsTheSession :
    (act (.reset 100) { oneChunk with phase := .sendFrame }).inputs = [.reset 100] ∧
    ¬ (oneChunk.state = .transferringChunks ∧ oneChunk.phase = .sendFrame) ∧
    (0 : BitVec 32).toNat < chunkCount oneChunk.imgLen.toNat ∧
    frameOf { oneChunk with phase := .sendFrame } 0 = some frameAB ∧
    frameOf { oneChunk with phase := .sendFrame, img := [] } 0 = none := by decide +kernel

theorem witness_StepKeepsInvariant : ∃ s t : State, Inv s ∧ step s = .next t :=
  ⟨session, _, inv_session, rfl⟩

theorem witness_OnlySendPhasesTransmit :
    ∃ s t : State, step s = .next t ∧ t.txh.length = 259 := by
  obtain ⟨t, h, hp⟩ := exists_of_nextIs
    (show nextIs (step { oneChunk with phase := .sendFrame }) (fun t => t.txh.length == 259) = true by decide +kernel)
  exact ⟨_, t, h, by simpa using hp⟩

theorem witness_ReceiveQueueIsNeverFlushed :
    (∃ s : State, s.inputs = [.rx 0x54] ∧ reads s = false) ∧
    (∃ s : State, FsmMoves s s ∧ reads s = true ∧ LinkWorks s ∧ s.rxq = [0x4F]) ∧
    (∃ s t : State, step s = .next t ∧ s.rxq = [0x4F] ∧ t.rxq = []) :=
  ⟨⟨act (.rx 0x54) abortedState, rfl, rfl⟩, ⟨rx [0x4F] waitO, .inl ⟨rfl, rfl⟩, rfl, .inl rfl, rfl⟩,
    ⟨rx [0x4F] waitO, _, rfl, rfl, rfl⟩⟩

theorem witness_CompleteOnlyByO :
    ∃ s t : State, Inv s ∧ step s = .next t ∧ s.state ≠ .complete ∧ t.state = .complete :=
  ⟨rx [0x4F] waitO, _, inv_waitO, rfl, by decide, rfl⟩

theorem witness_TerminalStatesDoNoLinkAccess :
    (∃ s t : State, Inv s ∧ s.state = .complete ∧ step s = .next t ∧ t.state = .idle) ∧
    (∃ s t : State, Inv s ∧ s.state = .aborted ∧ step s = .next t ∧ t.state = .aborted) :=
  ⟨⟨cmd 9 (at_ .complete .none), _, inv_complete _, rfl, rfl, rfl⟩,
    ⟨act (.rx 0x54) abortedState, _, inv_aborted _, rfl, rfl, rfl⟩⟩

theorem witness_FirstAbortWins :
    ∃ s t : State, Inv s ∧ s.state = .aborted ∧ step s = .next t ∧ t.state = .aborted :=
  ⟨cmd 0xA abortedState, _, inv_aborted _, rfl, rfl, rfl⟩

theorem witness_AbortEntryRecordsAndReleases :
    ∃ s t : State, Inv s ∧ step s = .next t ∧ s.state ≠ .aborted ∧ t.state = .aborted ∧
      t.errCause = .chunkRejectedExceededRetries :=
  ⟨rx [0x45] { oneChunk with cfgMaxRetries := 1 }, _, inv_lastAttempt, rfl, by decide, rfl, rfl⟩

theorem witness_FlagsChangeNoBehaviour :
    (∃ s t : State, step s = .next t) ∧ (∃ s : State, step s = .fault .unwrittenByte) ∧
    (∃ s : State, step s = .refused .imageChangedDuringSession) ∧
    (∃ s t : State, (∀ rest, s.inputs ≠ .regRead 2 :: rest) ∧ step s = .next t) :=
  ⟨⟨session, _, rfl⟩, ⟨act (.bufRead .fb 0) State.reset, rfl⟩, ⟨act (.imgPlace 0 0) oneChunk, rfl⟩,
    ⟨act (.regRead 1) session, _, fun _ h => by simp [act] at h, rfl⟩⟩

theorem witness_SessionInputsStayFixed :
    ∃ s t : State, Inv s ∧ busy s = true ∧ step s = .next t ∧ busy t = true :=
  ⟨session, _, inv_session, rfl, rfl, rfl⟩

/-- In a session whose one byte was not placed. -/
theorem inv_notPlaced : Inv { oneChunk with phase := .sendFrame, img := [] } := by
  refine ⟨?_, ?_, ⟨?_, ?_, ?_, ?_⟩, ⟨?_, ?_⟩, ?_, ?_, ⟨?_, ?_, ?_⟩⟩ <;> decide

/-- The invariant says nothing about what is still to come. -/
theorem inv_act {s : State} (h : Inv s) (i : Input) : Inv (act i s) :=
  ⟨h.position, h.outcome, ⟨h.counters.before, h.counters.chunk, h.counters.accepted, h.counters.complete⟩,
    ⟨h.errors.aborted, h.errors.otherwise⟩, h.maxRetries, h.cbLen, ⟨h.memories.cb, h.memories.fb, h.memories.img⟩⟩

theorem witness_StopsOnlyWhereNoResultIsDefined :
    Inv State.reset ∧
    (Inv (cmd 3 emptyBuffers) ∧ faultIs (step (cmd 3 emptyBuffers)) .unwrittenByte = true) ∧
    (Inv (cmd 5 State.reset) ∧ faultIs (step (cmd 5 State.reset)) .unwrittenByte = true) ∧
    (Inv (act (.bufRead .fb 258) State.reset) ∧ step (act (.bufRead .fb 258) State.reset) = .fault .unwrittenByte) ∧
    (Inv { oneChunk with phase := .sendFrame, img := [] } ∧
      faultIs (step { oneChunk with phase := .sendFrame, img := [] }) .imageByteNotPlaced = true) ∧
    (Inv (act (.imgPlace 0 0) session) ∧ step (act (.imgPlace 0 0) session) = .refused .imageChangedDuringSession) :=
  ⟨inv_reset, ⟨inv_act inv_emptyBuffers _, by decide +kernel⟩, ⟨inv_act inv_reset _, by decide⟩,
    ⟨inv_act inv_reset _, rfl⟩, ⟨inv_notPlaced, by decide⟩, ⟨inv_act inv_session _, rfl⟩⟩

theorem witness_CompletedSessionSentEveryFrame :
    ∃ s t : State, Inv s ∧ s.state = .awaitingLinkReady ∧ s.phase = .sendP ∧ SessionRun s t ∧ t.state = .complete := by
  have h : ((sessionRun 7 session).map fun t => t.state == .complete) = some true := by decide +kernel
  obtain ⟨t, ht, hc⟩ := Option.map_eq_some_iff.1 h
  exact ⟨session, t, inv_session, rfl, rfl, sessionRun_sound ht, by simpa using hc⟩

end Sys2Proof.Tests
end

section
/-! PROOFS of the family `00_scope`: a step runs the decoded instruction, wherever the word was taken from (R7, R160). -/

namespace Sys2Proof.Proofs

open Sys2Proof Sys2Proof.Machine Sys2Proof.Safety

/-- A frame laid out as R95 says is read back as its three fields. -/
theorem decodeFrame_frameBytes {p : List Byte} (hp : p.length = Config.chunkSize) (f : Bool) (k : U16) :
    decodeFrame (frameBytes p f k) = .ok (.dataFrame p f k) := by
  have htail : (frameBytes p f k).drop Config.chunkSize = [flagByte f, lowByte k, highByte k] :=
    List.drop_left' hp
  have hhead : (frameBytes p f k).take Config.chunkSize = p := List.take_left' hp
  cases f <;> simp [decodeFrame, htail, hhead, flagByte]

/-- The encoding of a chunk decodes to the chunk's data frame (R95, R144). -/
theorem decodeFrame_encodeFrame {c : List Byte} (hc : c.length ≤ 256) :
    decodeFrame (encodeFrame c) = .ok (frameOfChunk c) :=
  decodeFrame_frameBytes (length_padChunk hc) _ _

/-- The turn of a PHASE that reads is its wait. -/
theorem turn_of_reads {s : State} (hr : reads s = true) : turn s = waitTurn s := by
  unfold reads at hr
  split at hr
  case h_5 => cases hr
  all_goals simp only [turn, *]

/-- A write of CMD executes the command of the word (R105). -/
theorem step_of_commandWrite {s : State} {w : Word} {rest : List Input} (h : s.inputs = .regWrite 0 w :: rest) :
    step s = exec (decodeCmd w) { s with inputs := rest } := by
  rw [step_of_input h]; rfl

/-- The turn of a wait runs the control code at the head of RXQ, the byte taken (R100, R202). -/
theorem turn_of_receivedCode {s : State} {b : Byte} {q : List Byte} {i : Instr} (hr : reads s = true)
    (hw : LinkWorks s) (hq : s.rxq = b :: q) (hi : decodeCtrl b = .ok i) :
    turn s = exec i { s with rxq := q, answer := .ok } := by
  simp only [turn_of_reads hr, waitTurn, linkRead_of_byte hw hq, runByte, hi]

/-- The turn of SEND_FRAME runs the data frame of the current chunk (R168). -/
theorem turn_of_sendFrame {s : State} {c : List Byte} (hs : s.state = .transferringChunks)
    (hp : s.phase = .sendFrame) (hc : currentChunk s = some c) : turn s = exec (frameOfChunk c) s := by
  simp only [turn, hs, hp, frameToSend, hc]

/-- Settles O36: the oldest input says who moves, and each mover fetches the instruction its word decodes to; for
SEND_FRAME, the frame encoded for the current chunk decodes to the frame the turn runs. -/
theorem stepRunsDecodedInstruction : Obligations.StepRunsDecodedInstruction := by
  unfold Obligations.StepRunsDecodedInstruction
  refine ⟨?command, ?received, ?sendP, ?sendR, ?frame⟩
  case command =>
    intro s w rest i hin hi
    obtain rfl : decodeCmd w = i := Except.ok.inj hi
    exact step_of_commandWrite hin
  case received =>
    intro s s0 b q i hm hr hw hq hi
    rw [step_of_fsmMoves hm]
    exact turn_of_receivedCode hr hw hq hi
  case sendP =>
    intro s s0 hm hs hp
    simp only [step_of_fsmMoves hm, turn, hs, hp]
  case sendR =>
    intro s s0 hm hs hp
    simp only [step_of_fsmMoves hm, turn, hs, hp]
  case frame =>
    intro s s0 c i hm hs hp hc hi
    have hlen : c.length ≤ 256 := (length_currentChunk hc).2
    obtain rfl : frameOfChunk c = i := Except.ok.inj ((decodeFrame_encodeFrame hlen).symm.trans hi)
    rw [step_of_fsmMoves hm]
    exact turn_of_sendFrame hs hp hc

end Sys2Proof.Proofs
end

section
/-! PROOFS of the family `10_state`, the invariant of the machine: it holds at reset (R45) and every step keeps it. -/

namespace Sys2Proof.Proofs

open Sys2Proof Sys2Proof.Machine Sys2Proof.Safety

/-- What the invariant reads of a state; every other field at its reset value. -/
def invView (s : State) : State :=
  { State.reset with
    state := s.state, phase := s.phase, outcome := s.outcome, chunkIdx := s.chunkIdx, retryCnt := s.retryCnt
    errCause := s.errCause, errChunk := s.errChunk, imgLen := s.imgLen, cfgMaxRetries := s.cfgMaxRetries
    cbLen := s.cbLen, cb := s.cb, fb := s.fb, img := s.img }

theorem inv_invView (s : State) : Inv (invView s) ↔ Inv s :=
  ⟨fun ⟨hp, ho, ⟨b, k, a, d⟩, ⟨ea, eo⟩, hm, hl, ⟨mc, mf, mi⟩⟩ => ⟨hp, ho, ⟨b, k, a, d⟩, ⟨ea, eo⟩, hm, hl, ⟨mc, mf, mi⟩⟩,
    fun ⟨hp, ho, ⟨b, k, a, d⟩, ⟨ea, eo⟩, hm, hl, ⟨mc, mf, mi⟩⟩ => ⟨hp, ho, ⟨b, k, a, d⟩, ⟨ea, eo⟩, hm, hl, ⟨mc, mf, mi⟩⟩⟩

/-- A state with the same view meets the invariant too: RXQ, TXH, the flags, CRC_ACC, CHK, the link's answer and the
inputs are free. -/
theorem inv_of_invView_eq {s t : State} (h : Inv s) (e : invView t = invView s) : Inv t :=
  (inv_invView t).1 (e ▸ (inv_invView s).2 h)

/-! The updates that leave the position and the session registers alone. -/

theorem inv_withBuffers {s : State} (h : Inv s) {n : BitVec 9} {cb fb : Memory} (hn : n.toNat ≤ Config.chunkSize)
    (hcb : cb.wf Config.chunkSize) (hfb : fb.wf Config.frameSize) : Inv { s with cbLen := n, cb := cb, fb := fb } :=
  ⟨h.position, h.outcome, ⟨h.counters.before, h.counters.chunk, h.counters.accepted, h.counters.complete⟩,
    ⟨h.errors.aborted, h.errors.otherwise⟩, h.maxRetries, hn, ⟨hcb, hfb, h.memories.img⟩⟩

theorem inv_withImage {s : State} (h : Inv s) {img : Memory} (hi : img.wf Config.imageSize) :
    Inv { s with img := img } :=
  ⟨h.position, h.outcome, ⟨h.counters.before, h.counters.chunk, h.counters.accepted, h.counters.complete⟩,
    ⟨h.errors.aborted, h.errors.otherwise⟩, h.maxRetries, h.cbLen, ⟨h.memories.cb, h.memories.fb, hi⟩⟩

/-- While BUSY = 0 no counter is bounded by IMG_LEN or CFG_MAX_RETRIES, so both may be written (R33, R34, R41). -/
theorem inv_withConfig {s : State} (h : Inv s) (hb : busy s = false) (len : BitVec 32) {m : BitVec 8} (hm : m ≠ 0) :
    Inv { s with imgLen := len, cfgMaxRetries := m } := by
  have hs : s.state ≠ .transferringChunks := fun e => by simp [busy, e] at hb
  exact ⟨h.position, h.outcome, ⟨h.counters.before, fun e => absurd e hs, fun e => absurd e hs, h.counters.complete⟩,
    ⟨h.errors.aborted, h.errors.otherwise⟩, hm, h.cbLen, ⟨h.memories.cb, h.memories.fb, h.memories.img⟩⟩

theorem inv_buildFrame {s : State} {c : List Byte} (h : Inv s) (hc : c.length ≤ 256) : Inv (buildFrame c s) :=
  inv_of_invView_eq (inv_withBuffers h h.cbLen h.memories.cb (memories_buildFrame hc h.memories).fb) rfl

theorem inv_loadChunk {s : State} {c : List Byte} (h : Inv s) (hc : c.length ≤ 256) : Inv (loadChunk c s) :=
  have hm := memories_loadChunk hc h.memories
  inv_of_invView_eq (inv_withBuffers h ((cbLen_loadChunk (s := s) hc).trans_le hc) hm.cb hm.fb) rfl

/-! The updates that move the control position. -/

/-- The abort entry from any state, whatever RETRY_CNT has become (R230). -/
theorem inv_raise_retryCnt {s : State} {cause : Cause} (h : Inv s) (hc : cause ≠ .none) (r : BitVec 8) :
    Inv (raise cause { s with retryCnt := r }) :=
  ⟨rfl, rfl, ⟨nofun, nofun, nofun, nofun⟩, ⟨fun _ => ⟨hc, rfl⟩, fun hs => absurd rfl hs⟩, h.maxRetries, h.cbLen,
    ⟨h.memories.cb, h.memories.fb, h.memories.img⟩⟩

theorem inv_raise {s : State} {cause : Cause} (h : Inv s) (hc : cause ≠ .none) : Inv (raise cause s) :=
  inv_raise_retryCnt h hc s.retryCnt

/-- CLEAR, from any state (R180). -/
theorem inv_returnToIdle {s : State} (h : Inv s) : Inv (returnToIdle s) :=
  ⟨rfl, rfl, ⟨fun _ => ⟨rfl, rfl⟩, nofun, nofun, nofun⟩, ⟨nofun, fun _ => ⟨rfl, rfl⟩⟩, h.maxRetries, h.cbLen,
    ⟨h.memories.cb, h.memories.fb, h.memories.img⟩⟩

theorem beforeSession_iff {st : FsmState} :
    beforeSession st = true ↔ st ≠ .transferringChunks ∧ st ≠ .complete ∧ st ≠ .aborted := by
  cases st <;> simp [beforeSession]

theorem outcomeOf_of_beforeSession {st : FsmState} (h : beforeSession st = true) : outcomeOf st = .none := by
  cases st with
  | idle | awaitingLinkReady | sendingHandshake => rfl
  | transferringChunks | complete | aborted => cases h

/-- Before the session, a move to another position before it (R161 to R163). -/
theorem inv_moveTo_beforeSession {s : State} {st : FsmState} {ph : Phase} (h : Inv s)
    (hs : beforeSession s.state = true) (hst : beforeSession st = true) (hp : legalPosition st ph = true) :
    Inv (moveTo st ph s) := by
  obtain ⟨ht, hd, ha⟩ := beforeSession_iff.1 hst
  have ho : s.outcome = outcomeOf st := by
    rw [h.outcome, outcomeOf_of_beforeSession hs, outcomeOf_of_beforeSession hst]
  exact ⟨hp, ho, ⟨fun _ => h.counters.before hs, fun e => absurd e ht, fun e => absurd e ht, fun e => absurd e hd⟩,
    ⟨fun e => absurd e ha, fun _ => h.errors.otherwise (beforeSession_iff.1 hs).2.2⟩, h.maxRetries, h.cbLen,
    ⟨h.memories.cb, h.memories.fb, h.memories.img⟩⟩

/-- A move into or within the session, with counters legal at the new PHASE (R33, R34). -/
theorem inv_inSession {s : State} {ph : Phase} {k : BitVec 32} {r : BitVec 8} {o : SessionOutcome} (h : Inv s)
    (hs : s.state ≠ .aborted) (ho : o = .inProgress) (hp : legalPosition .transferringChunks ph = true)
    (hk : ph ≠ .waitO → k.toNat < imageChunks s ∧ r < s.cfgMaxRetries)
    (ha : ph = .waitO → k.toNat = imageChunks s ∧ r = 0) :
    Inv { s with chunkIdx := k, retryCnt := r, outcome := o, state := .transferringChunks, phase := ph } :=
  ⟨hp, ho, ⟨nofun, fun _ => hk, fun _ => ha, nofun⟩, ⟨nofun, fun _ => h.errors.otherwise hs⟩, h.maxRetries, h.cbLen,
    ⟨h.memories.cb, h.memories.fb, h.memories.img⟩⟩

theorem outcome_inProgress {s : State} (h : Inv s) (hs : s.state = .transferringChunks) :
    s.outcome = .inProgress := by rw [h.outcome, hs]; rfl

theorem not_aborted_of_transferring {s : State} (hs : s.state = .transferringChunks) : s.state ≠ .aborted := by
  rw [hs]; nofun

/-- A move between two PHASEs of the chunk loop, the counters unchanged. -/
theorem inv_moveTo_chunkPhase {s : State} {ph : Phase} (h : Inv s) (hs : s.state = .transferringChunks)
    (hp : s.phase ≠ .waitO) (hph : legalPosition .transferringChunks ph = true) (hne : ph ≠ .waitO) :
    Inv (moveTo .transferringChunks ph s) :=
  inv_inSession h (not_aborted_of_transferring hs) (outcome_inProgress h hs) hph
    (fun _ => h.counters.chunk hs hp) (fun e => absurd e hne)

theorem zero_lt_maxRetries {s : State} (h : Inv s) : 0 < s.cfgMaxRetries := (BitVec.pos_iff_ne_zero _).2 h.maxRetries

/-- Session creation (R165, R167). -/
theorem inv_createSession {s : State} (h : Inv s) (hs : s.state ≠ .aborted) : Inv (createSession s) := by
  by_cases hn : chunkCount s.imgLen.toNat = 0
  · rw [createSession_empty hn]
    exact inv_inSession h hs rfl rfl (fun e => absurd rfl e) (fun _ => ⟨hn.symm, rfl⟩)
  · rw [createSession_chunks hn]
    exact inv_inSession h hs rfl rfl (fun _ => ⟨Nat.pos_of_ne_zero hn, zero_lt_maxRetries h⟩) nofun

/-- Accepted: CHUNK_IDX rises to N(IMG_LEN) at most, and WAIT_O is entered exactly there (R171). -/
theorem inv_accepted {s : State} (h : Inv s) (hs : s.state = .transferringChunks) (hp : s.phase = .waitResp) :
    Inv (accepted s) := by
  have hne := not_aborted_of_transferring hs
  have ho := outcome_inProgress h hs
  have hk := (h.counters.chunk hs (by rw [hp]; nofun)).1
  have hsucc : (s.chunkIdx + 1).toNat = s.chunkIdx.toNat + 1 := toNat_chunkIdx_succ hk
  by_cases hl : (s.chunkIdx + 1).toNat = chunkCount s.imgLen.toNat
  · rw [accepted_last hl]
    exact inv_inSession h hne ho rfl (fun e => absurd rfl e) (fun _ => ⟨hl, rfl⟩)
  · rw [accepted_next hl]
    have hlt : (s.chunkIdx + 1).toNat < imageChunks s := Nat.lt_of_le_of_ne (hsucc ▸ hk) hl
    exact inv_inSession h hne ho rfl (fun _ => ⟨hlt, zero_lt_maxRetries h⟩) nofun

/-- Rejected: a retry is left, or the session aborts (R172). -/
theorem inv_rejected {s : State} (h : Inv s) (hs : s.state = .transferringChunks) (hp : s.phase = .waitResp) :
    Inv (rejected s) := by
  have hk := (h.counters.chunk hs (by rw [hp]; nofun)).1
  by_cases hr : s.cfgMaxRetries ≤ s.retryCnt + 1
  · rw [rejected_last hr]
    exact inv_raise_retryCnt (cause := .chunkRejectedExceededRetries) h nofun _
  · rw [rejected_retry hr]
    have hpause := inv_inSession (ph := .retryDelay) h (not_aborted_of_transferring hs) (outcome_inProgress h hs) rfl
      (fun _ => ⟨hk, BitVec.not_le.1 hr⟩) nofun
    exact inv_of_invView_eq hpause rfl

/-- An answer that is neither `C` nor `E`, under each policy (R173). -/
theorem inv_otherByte {s : State} (h : Inv s) (hs : s.state = .transferringChunks) (hp : s.phase = .waitResp) :
    Inv (otherByte s) := by
  have hv : Inv (setProtoViol s) := inv_of_invView_eq h rfl
  unfold otherByte
  split
  · exact inv_rejected hv hs hp
  · exact h
  · exact inv_raise hv nofun

/-- `O` ends the session (R175). -/
theorem inv_complete {s : State} (h : Inv s) (hs : s.state = .transferringChunks) (hp : s.phase = .waitO) :
    Inv { moveTo .complete .none s with outcome := .complete } :=
  ⟨rfl, rfl, ⟨nofun, nofun, nofun, fun _ => (h.counters.accepted hs hp).2⟩,
    ⟨nofun, fun _ => h.errors.otherwise (not_aborted_of_transferring hs)⟩, h.maxRetries, h.cbLen,
    ⟨h.memories.cb, h.memories.fb, h.memories.img⟩⟩

/-- Consuming a byte keeps the invariant. -/
theorem inv_received {s t : State} {b : Byte} (h : Inv s) (ht : Received b s t) : Inv t := by
  cases ht with
  | linkReady hs => exact inv_moveTo_beforeSession h (by rw [hs]; rfl) rfl rfl
  | targetReady hs hp => exact inv_moveTo_chunkPhase h hs (by rw [hp]; nofun) rfl nofun
  | acceptedChunk hs hp => exact inv_accepted h hs hp
  | rejectedChunk hs hp => exact inv_rejected h hs hp
  | otherAnswer hs hp => exact inv_otherByte h hs hp
  | writeComplete hs hp => exact inv_complete h hs hp
  | discarded => exact h

/-- The FSM's turn keeps the invariant. -/
theorem inv_turn {s t : State} (h : Inv s) (ht : TurnCase s t) : Inv t := by
  have hok : ∀ {q x}, Inv { s with rxq := q, txh := x, answer := .ok } := inv_of_invView_eq h rfl
  cases ht with
  | noStep => exact h
  | sendsP hs =>
    rcases sendP_cases s with ⟨-, e⟩ | ⟨n, -, e⟩ <;> rw [e]
    · exact inv_moveTo_beforeSession hok (by simp [hs, beforeSession]) rfl rfl
    · exact inv_raise hok nofun
  | sendsR hs =>
    rcases sendR_cases s with ⟨-, e⟩ | ⟨n, -, e⟩ <;> rw [e]
    · exact inv_createSession hok (by simp [hs])
    · exact inv_raise hok nofun
  | sendsFrame c hs hp _ hc =>
    have hl := inv_loadChunk h (length_currentChunk hc).2
    rcases sendFrame_cases c s with ⟨-, e⟩ | ⟨n, -, e⟩ <;> rw [e]
    · exact inv_moveTo_chunkPhase (inv_of_invView_eq hl rfl) hs (by simp [hp]) rfl nofun
    · exact inv_raise (inv_of_invView_eq hl rfl) nofun
  | endsPause hs hp =>
    exact inv_of_invView_eq (inv_moveTo_chunkPhase (ph := .waitT) h hs (by rw [hp]; nofun) rfl nofun) rfl
  | consumes b q => exact inv_received hok (receive_cases b _)
  | readFails => exact inv_raise hok nofun
  | timesOut => exact inv_raise hok nofun

/-- A command keeps the invariant. -/
theorem inv_command {s t : State} (h : Inv s) (ht : CommandCase s t) : Inv t := by
  cases ht with
  | nop => exact h
  | refused => exact inv_of_invView_eq h rfl
  | checksums => exact inv_of_invView_eq h rfl
  | encodes c _ hc => exact inv_buildFrame h (length_chunkBuffer hc ▸ h.cbLen)
  | checks => exact inv_of_invView_eq h rfl
  | starts hs => exact inv_moveTo_beforeSession h (by rw [hs]; rfl) rfl rfl
  | clears => exact inv_returnToIdle h
  | cancels => exact inv_raise h nofun

/-- CFG_MAX_RETRIES never holds 0 (R38). -/
theorem maxRetriesOfWord_ne_zero (v : Word) : maxRetriesOfWord v ≠ 0 := by
  unfold maxRetriesOfWord
  split
  · nofun
  · assumption

/-- CB_LEN never holds more than 256 (R23). -/
theorem toNat_cbLenOfWord_le (v : Word) : (cbLenOfWord v).toNat ≤ 256 := by
  unfold cbLenOfWord
  split
  · decide
  · omega

/-- A register write keeps the invariant. -/
theorem inv_store {s t : State} {v : Word} (h : Inv s) (ht : StoreCase v s t) : Inv t := by
  cases ht with
  | ignored => exact h
  | refused => exact inv_of_invView_eq h rfl
  | flags => exact inv_of_invView_eq h rfl
  | imgLen hb => exact inv_withConfig h hb v h.maxRetries
  | maxRetries hb => exact inv_withConfig h hb s.imgLen (maxRetriesOfWord_ne_zero v)
  | retryDelay => exact inv_of_invView_eq h rfl
  | cbLen => exact inv_withBuffers h (toNat_cbLenOfWord_le v) h.memories.cb h.memories.fb

/-- A byte written within a window keeps the invariant. -/
theorem inv_setWindow {s : State} {w : Window} {i : Nat} (h : Inv s) (hi : i < windowSize w) (b : Byte) :
    Inv (setWindow w ((windowMem w s).write i b) s) := by
  cases w with
  | cb => exact inv_withBuffers h h.cbLen (Memory.wf_write h.memories.cb hi) h.memories.fb
  | fb => exact inv_withBuffers h h.cbLen h.memories.cb (Memory.wf_write h.memories.fb hi)

/-- Settles O49: in Idle only the counters before the session and the empty error registers are asked for, and no memory
lists a byte. -/
theorem resetMeetsInvariant : Obligations.ResetMeetsInvariant :=
  ⟨rfl, rfl, ⟨fun _ => ⟨rfl, rfl⟩, nofun, nofun, nofun⟩, ⟨nofun, fun _ => ⟨rfl, rfl⟩⟩, by decide, Nat.zero_le _,
    memories_reset⟩

/-- Every act of the caller or the environment keeps the invariant. -/
theorem inv_input {s t : State} {i : Input} (h : Inv s) (ht : InputCase s i t) : Inv t := by
  cases ht with
  | command v hc => exact inv_command h hc
  | store n v _ hc => exact inv_store h hc
  | bufWrite w j b hj => exact inv_setWindow h hj b
  | imgPlace a b => exact inv_withImage h (Memory.wf_write h.memories.img a.isLt)
  | reset cut => exact inv_of_invView_eq (inv_withImage resetMeetsInvariant h.memories.img) rfl
  | regRead | bufRefused | bufRead | bufReadOutside | rx | errLink | timeOut | elapse =>
    exact inv_of_invView_eq h rfl

/-- The input that gives the FSM its turn is no part of the invariant. -/
theorem inv_of_fsmMoves {s s0 : State} (h : Inv s) (hm : FsmMoves s s0) : Inv s0 := by
  rcases hm with ⟨-, rfl⟩ | ⟨rest, -, rfl⟩
  · exact h
  · exact inv_of_invView_eq h rfl

/-- Settles O50: the input taken is no part of the invariant, and whoever moves then keeps it. -/
theorem stepKeepsInvariant : Obligations.StepKeepsInvariant := by
  unfold Obligations.StepKeepsInvariant
  intro s t h hst
  rcases step_cases hst with ⟨s0, hm, ht⟩ | ⟨i, rest, -, -, hi⟩
  · exact inv_turn (inv_of_fsmMoves h hm) ht
  · exact inv_input (s := { s with inputs := rest }) (inv_of_invView_eq h rfl) hi

end Sys2Proof.Proofs
end

section
/-! PROOFS of the family `10_state`, the register port: what a write stores (R23, R36 to R41) and where a read shows each
field (R40). -/

namespace Sys2Proof.Proofs

open Sys2Proof Sys2Proof.Machine Sys2Proof.Safety

/-- Settles O47: each value is written so in the reset state, and no byte is listed. -/
theorem resetHoldsTheGivenValues : Obligations.ResetHoldsTheGivenValues :=
  ⟨rfl, rfl, rfl, rfl, rfl, rfl, rfl, rfl, rfl, rfl, rfl, rfl, rfl, rfl, rfl, rfl, rfl, rfl, rfl, rfl, rfl, rfl,
    Memory.read_nil, Memory.read_nil⟩

/-! Writes. -/

/-- A write of a register but CMD stores, as one step (R40, R41). -/
theorem step_of_regWrite {s : State} {n : BitVec 4} {v : Word} {rest : List Input} (hn : n ≠ 0)
    (h : s.inputs = .regWrite n v :: rest) : step s = .next (regStore n v { s with inputs := rest }) := by
  rw [step_of_input h]
  exact if_neg hn

theorem whenNotBusy_of_not_busy {s : State} (h : busy s = false) (t : State) : whenNotBusy s t = t := by
  simp [whenNotBusy, h]

theorem whenNotBusy_of_busy {s : State} (h : busy s = true) (t : State) : whenNotBusy s t = setCmdErr s := by
  simp [whenNotBusy, h]

/-- CFG_MAX_RETRIES stores bits [7:0], and 1 for 0 (R38). -/
theorem maxRetriesOfWord_eq (v : Word) :
    maxRetriesOfWord v = if v.toNat % 256 = 0 then 1 else BitVec.ofNat 8 v.toNat := by
  have hx : v.extractLsb' 0 8 = BitVec.ofNat 8 v.toNat := rfl
  have h0 : BitVec.ofNat 8 v.toNat = 0 ↔ v.toNat % 256 = 0 := by simp [← BitVec.toNat_inj]
  simp only [maxRetriesOfWord, hx, h0]

/-- CB_LEN stores bits [8:0], capped at 256 (R23). -/
theorem cbLenOfWord_eq (v : Word) : cbLenOfWord v = BitVec.ofNat 9 (min 256 (v.toNat % 512)) := by
  have hx : (v.extractLsb' 0 9).toNat = v.toNat % 512 := by simp
  unfold cbLenOfWord
  split
  · rw [Nat.min_eq_left (by omega)]; rfl
  · rw [Nat.min_eq_right (by omega), ← hx, BitVec.ofNat_toNat, BitVec.setWidth_eq]

/-- Settles O41: while BUSY = 0 each register stores the word by its own rule. -/
theorem registerWritesStore : Obligations.RegisterWritesStore := by
  unfold Obligations.RegisterWritesStore
  intro s v rest hb
  have hw := whenNotBusy_of_not_busy (s := { s with inputs := rest }) hb
  refine ⟨fun h => ?imgLen, fun h => ?maxRetries, fun h => ?retryDelay, fun h => ?cbLen⟩
  all_goals rw [step_of_regWrite (by decide) h, regStore]
  case imgLen => exact congrArg _ (hw _)
  case maxRetries => rw [← maxRetriesOfWord_eq]; exact congrArg _ (hw _)
  case retryDelay => exact congrArg _ (hw _)
  case cbLen => rw [← cbLenOfWord_eq]; exact congrArg _ (hw _)

/-- A write of a frozen register while BUSY = 1 only sets CMD_ERR (R41). -/
theorem regStore_of_busy {s : State} {n : BitVec 4} (hb : busy s = true) (hn : n ∈ [7#4, 8#4, 9#4, 11#4]) (v : Word) :
    regStore n v s = setCmdErr s := by
  simp only [List.mem_cons, List.not_mem_nil, or_false] at hn
  rcases hn with rfl | rfl | rfl | rfl <;> exact whenNotBusy_of_busy hb _

/-- A buffer write while BUSY = 1 only sets CMD_ERR, in range or not (R41, R62). -/
theorem bufWrite_of_busy {s : State} (hb : busy s = true) (w : Window) (i : Nat) (b : Byte) :
    bufWrite w i b s = setCmdErr s := by
  unfold bufWrite
  split
  · exact whenNotBusy_of_busy hb _
  · rfl

/-- Settles O42: the frozen registers and both windows refuse every write while BUSY = 1. -/
theorem writesAreFrozenWhileBusy : Obligations.WritesAreFrozenWhileBusy := by
  unfold Obligations.WritesAreFrozenWhileBusy
  intro s rest hb
  refine ⟨fun n hn v h => ?register, fun w i b h => ?buffer⟩
  case register =>
    have h0 : n ≠ 0 := fun e => absurd (e ▸ hn) (by decide)
    rw [step_of_regWrite h0 h]
    exact congrArg _ (regStore_of_busy (s := { s with inputs := rest }) hb hn v)
  case buffer =>
    rw [step_of_input h]
    exact congrArg _ (bufWrite_of_busy (s := { s with inputs := rest }) hb w i b)

/-- Settles O43: no other register has a store. -/
theorem readOnlyRegistersIgnoreWrites : Obligations.ReadOnlyRegistersIgnoreWrites := by
  unfold Obligations.ReadOnlyRegistersIgnoreWrites
  intro s v rest n hn h
  have h0 : n ≠ 0 := fun e => absurd (e ▸ hn) (by decide)
  rw [step_of_regWrite h0 h]
  simp only [List.mem_cons, List.not_mem_nil, or_false] at hn
  rcases hn with rfl | rfl | rfl | rfl | rfl | rfl | rfl | rfl | rfl | rfl <;> rfl

/-- A bit written 1 clears the flag, a bit written 0 leaves it (R36). -/
theorem and_not_eq_ite (flag bit : Bool) : (flag && !bit) = if bit then false else flag := by
  cases bit <;> simp

/-- Settles O44: FLAGS is the one register whose write is never refused; each flag goes by its own bit. -/
theorem flagsAreWriteOneToClear : Obligations.FlagsAreWriteOneToClear := by
  unfold Obligations.FlagsAreWriteOneToClear
  intro s v rest h
  rw [step_of_regWrite (by decide) h, ← and_not_eq_ite, ← and_not_eq_ite]
  rfl

/-! Reads. -/

/-- Bits outside a placed field are 0. -/
theorem getLsbD_fieldAt_disjoint {n : Nat} (lo : Nat) (v : BitVec n) {i : Nat} (h : i < lo ∨ lo + n ≤ i) :
    (fieldAt lo v).getLsbD i = false := by
  rcases h with h | h
  · simp [fieldAt, h]
  · have : v.getLsbD (i - lo) = false := BitVec.getLsbD_of_ge _ _ (by omega)
    simp [fieldAt, this]

@[simp] theorem extractLsb'_fieldAt_disjoint {n : Nat} (lo : Nat) (v : BitVec n) {a w : Nat}
    (h : a + w ≤ lo ∨ lo + n ≤ a) : (fieldAt lo v).extractLsb' a w = 0#w := by
  refine BitVec.eq_of_getLsbD_eq fun i hi => ?_
  simp [getLsbD_fieldAt_disjoint lo v (i := a + i) (by omega)]

/-- The bits of a placed field are the field's. -/
@[simp] theorem extractLsb'_fieldAt_same {n : Nat} (lo : Nat) (v : BitVec n) (h : lo + n ≤ 32) :
    (fieldAt lo v).extractLsb' lo n = v := by
  refine BitVec.eq_of_getLsbD_eq fun i hi => ?_
  have : lo + i < 32 := by omega
  have : i < 32 := by omega
  simp [fieldAt, *]

@[simp] theorem getElem_fieldAt_disjoint {n : Nat} (lo : Nat) (v : BitVec n) {i : Nat} (hi : i < 32)
    (h : i < lo ∨ lo + n ≤ i) : (fieldAt lo v)[i] = false := getLsbD_fieldAt_disjoint lo v h

@[simp] theorem getElem_bitAt_same {lo : Nat} (h : lo < 32) (b : Bool) : (bitAt lo b)[lo] = b := by
  simp [bitAt, fieldAt]

@[simp] theorem getElem_bitAt_disjoint (lo : Nat) (b : Bool) {i : Nat} (hi : i < 32) (h : i < lo ∨ lo + 1 ≤ i) :
    (bitAt lo b)[i] = false := getLsbD_fieldAt_disjoint lo _ h

@[simp] theorem extractLsb'_bitAt_disjoint (lo : Nat) (b : Bool) {a w : Nat} (h : a + w ≤ lo ∨ lo + 1 ≤ a) :
    (bitAt lo b).extractLsb' a w = 0#w := extractLsb'_fieldAt_disjoint lo _ h

/-- A field at bit 0 reads as its own number. -/
theorem toNat_fieldAt_zero {n : Nat} (h : n ≤ 32) (v : BitVec n) : (fieldAt 0 v).toNat = v.toNat := by
  simp [fieldAt, BitVec.toNat_setWidth_of_le h]

/-- BUSY by the states it names (R42). -/
theorem busy_eq_decide (s : State) :
    busy s = decide (s.state = .awaitingLinkReady ∨ s.state = .sendingHandshake ∨ s.state = .transferringChunks) := by
  unfold busy; split <;> simp [*]

theorem done_eq_decide (s : State) : done s = decide (s.state = .complete) := by
  unfold done; split <;> simp [*]

theorem failed_eq_decide (s : State) : failed s = decide (s.state = .aborted) := by
  unfold failed; split <;> simp [*]

/-! The words of the map built from several fields, field by field; the fields do not overlap (R40). -/

theorem statusWord_fields (s : State) :
    (statusWord s).extractLsb' 0 3 = stateBits s.state ∧ (statusWord s).extractLsb' 4 4 = phaseBits s.phase ∧
    (statusWord s).extractLsb' 8 2 = outcomeBits s.outcome ∧ (statusWord s).getLsbD 12 = busy s ∧
    (statusWord s).getLsbD 14 = done s ∧ (statusWord s).getLsbD 15 = failed s := by
  simp [statusWord, BitVec.extractLsb'_or]

theorem statusWord_unlisted (s : State) :
    (statusWord s).getLsbD 3 = false ∧ (statusWord s).extractLsb' 10 2 = 0 ∧ (statusWord s).getLsbD 13 = false ∧
    (statusWord s).extractLsb' 16 16 = 0 := by
  simp [statusWord, BitVec.extractLsb'_or]

theorem flagsWord_fields (s : State) :
    (flagsWord s).getLsbD 0 = s.protoViol ∧ (flagsWord s).getLsbD 1 = s.cmdErr ∧ (flagsWord s).extractLsb' 2 30 = 0 := by
  simp [flagsWord, BitVec.extractLsb'_or]

theorem chkWord_fields (s : State) :
    (chkWord s).getLsbD 0 = s.chkOk ∧ (chkWord s).getLsbD 1 = s.chkFlagLegal ∧ (chkWord s).extractLsb' 2 6 = 0 ∧
    (chkWord s).extractLsb' 8 8 = s.chkFlag ∧ (chkWord s).extractLsb' 16 16 = s.chkCrcRx := by
  simp [chkWord, BitVec.extractLsb'_or]

/-- The encoding of a value found in a table of the spec is the number the table gives it. -/
theorem bits_of_table {α : Type} {n : Nat} {bits : α → BitVec n} {table : List (α × BitVec n)}
    (ht : ∀ p ∈ table, bits p.1 = p.2) {x : α} {v : BitVec n} (hv : v = bits x) :
    ∀ p ∈ table, x = p.1 → v = p.2 :=
  fun p hp hx => by rw [hv, hx, ht p hp]

/-- Settles O45: the data is the register's word; the words of one field are that field, the others are shown by their
fields, and each encoding by its table. -/
theorem registerReadsShowTheMap : Obligations.RegisterReadsShowTheMap := by
  unfold Obligations.RegisterReadsShowTheMap
  intro s n rest h
  refine ⟨regValue n s, ?read, ?status, fun hn => ?flags, ?cause, fun hn => ?errChunk, fun hn => ?chunkIdx,
    fun hn => ?retryCnt, fun hn => ?imgLen, fun hn => ?maxRetries, fun hn => ?retryDelay, fun hn => ?crcAcc,
    fun hn => ?cbLen, fun hn => ?chk, fun hn => ?count, ?unused⟩
  case read => rw [step_of_input h]; rfl
  case status =>
    rintro rfl
    obtain ⟨hst, hph, hout, hbusy, hdone, hfailed⟩ := statusWord_fields s
    exact ⟨bits_of_table (by decide) hst, bits_of_table (by decide) hph, bits_of_table (by decide) hout,
      hbusy.trans (busy_eq_decide s), hbusy, hdone.trans (done_eq_decide s), hfailed.trans (failed_eq_decide s),
      statusWord_unlisted s⟩
  case cause =>
    rintro rfl
    exact ⟨bits_of_table (by decide) (extractLsb'_fieldAt_same 0 (causeBits s.errCause) (by decide)),
      extractLsb'_fieldAt_disjoint 0 (causeBits s.errCause) (by decide)⟩
  case flags => subst hn; exact flagsWord_fields s
  case chk => subst hn; exact chkWord_fields s
  case errChunk | chunkIdx | imgLen => subst hn; rfl
  case retryCnt | maxRetries | retryDelay | crcAcc | cbLen => subst hn; exact toNat_fieldAt_zero (by decide) _
  case count =>
    subst hn
    have : imageChunks s ≤ 2 ^ 24 := chunkCount_le s.imgLen
    exact Nat.mod_eq_of_lt (by omega)
  case unused => rintro (rfl | rfl | rfl) <;> rfl

end Sys2Proof.Proofs
end

section
/-! PROOFS of the family `10_state`, the sticky flags: no operation reads them, each only sets, clears or leaves them
(R36). -/

namespace Sys2Proof.Proofs

open Sys2Proof Sys2Proof.Machine Sys2Proof.Safety

/-- `u` is `t` but for its flags: PROTO_VIOL is the `p` its run started with or what `t` holds, and so is CMD_ERR with
`c`. -/
inductive FlagsApart (p c : Bool) (t : State) : State → Prop where
  | mk (p' c' : Bool) (hp : p' = p ∨ p' = t.protoViol) (hc : c' = c ∨ c' = t.cmdErr) :
      FlagsApart p c t (withFlags t p' c')

/-- Two outcomes that agree but for the flags. -/
inductive OutcomesApart (p c : Bool) :
    Host.Outcome State Fault Refusal → Host.Outcome State Fault Refusal → Prop where
  | next {t u : State} (h : FlagsApart p c t u) : OutcomesApart p c (.next t) (.next u)
  | fault (e : Fault) : OutcomesApart p c (.fault e) (.fault e)
  | refused (e : Refusal) : OutcomesApart p c (.refused e) (.refused e)

/-- An operation that leaves the flags alone. -/
def KeepsFlags (f : State → State) : Prop := ∀ s p c, f (withFlags s p c) = withFlags (f s) p c

section
variable {p c : Bool} {s : State}

@[simp] theorem withFlags_state : (withFlags s p c).state = s.state := rfl
@[simp] theorem withFlags_phase : (withFlags s p c).phase = s.phase := rfl
@[simp] theorem withFlags_chunkIdx : (withFlags s p c).chunkIdx = s.chunkIdx := rfl
@[simp] theorem withFlags_params : (withFlags s p c).params = s.params := rfl
@[simp] theorem withFlags_img : (withFlags s p c).img = s.img := rfl
@[simp] theorem busy_withFlags : busy (withFlags s p c) = busy s := rfl
@[simp] theorem imageChunks_withFlags : imageChunks (withFlags s p c) = imageChunks s := rfl
@[simp] theorem currentChunk_withFlags : currentChunk (withFlags s p c) = currentChunk s := rfl
@[simp] theorem chunkBuffer_withFlags : chunkBuffer (withFlags s p c) = chunkBuffer s := rfl
@[simp] theorem frameBuffer_withFlags : frameBuffer (withFlags s p c) = frameBuffer s := rfl
@[simp] theorem windowMem_withFlags (w : Window) : windowMem w (withFlags s p c) = windowMem w s := by cases w <;> rfl

theorem flagsApart_refl : FlagsApart p c s (withFlags s p c) := .mk p c (.inl rfl) (.inl rfl)

theorem flagsApart_of_keeps {f : State → State} (h : KeepsFlags f) : FlagsApart p c (f s) (f (withFlags s p c)) :=
  h s p c ▸ flagsApart_refl

theorem flagsApart_setCmdErr : FlagsApart p c (setCmdErr s) (setCmdErr (withFlags s p c)) :=
  .mk p true (.inl rfl) (.inr rfl)

/-- An accepted or refused effect: the guard is the same in both runs. -/
theorem outcomesApart_whenAccepted {ok : Bool} {o o' : Host.Outcome State Fault Refusal} (h : OutcomesApart p c o o') :
    OutcomesApart p c (whenAccepted ok s o) (whenAccepted ok (withFlags s p c) o') := by
  cases ok with
  | true => exact h
  | false => exact .next flagsApart_setCmdErr

/-! The transitions of the state machine. -/

theorem keepsFlags_sendThen (bs : List Byte) {k : State → State} (hk : KeepsFlags k) : KeepsFlags (sendThen bs k) := by
  intro s p c
  rcases linkWorks_or_fails s with h | ⟨n, h⟩
  · rw [sendThen_of_works h, sendThen_of_works (s := withFlags s p c) h]
    exact hk { s with txh := s.txh ++ bs, answer := .ok } p c
  · rw [sendThen_of_error h, sendThen_of_error (s := withFlags s p c) h]
    rfl

theorem keepsFlags_createSession : KeepsFlags createSession := by
  intro s p c
  unfold createSession
  dsimp only
  rw [apply_ite (withFlags · p c)]
  rfl

theorem keepsFlags_accepted : KeepsFlags accepted := by
  intro s p c
  unfold accepted
  dsimp only
  rw [apply_ite (withFlags · p c)]
  rfl

theorem keepsFlags_rejected : KeepsFlags rejected := by
  intro s p c
  unfold rejected
  dsimp only
  rw [apply_ite (withFlags · p c)]
  rfl

theorem rejected_protoViol (s : State) : (rejected s).protoViol = s.protoViol := by
  by_cases h : s.cfgMaxRetries ≤ s.retryCnt + 1
  · simp [rejected_last h]
  · simp [rejected_retry h]

/-- An other byte sets PROTO_VIOL or leaves it, by the policy alone (R173). -/
theorem flagsApart_otherByte : FlagsApart p c (otherByte s) (otherByte (withFlags s p c)) := by
  unfold otherByte
  rw [withFlags_params]
  split
  · have hv : rejected (setProtoViol (withFlags s p c)) = withFlags (rejected (setProtoViol s)) true c :=
      keepsFlags_rejected (setProtoViol s) true c
    rw [hv]
    exact .mk true c (.inr (rejected_protoViol (setProtoViol s)).symm) (.inl rfl)
  · exact flagsApart_refl
  · exact .mk true c (.inr rfl) (.inl rfl)

theorem flagsApart_ite {q : Prop} [Decidable q] {t t' u u' : State} (ht : FlagsApart p c t t')
    (hu : FlagsApart p c u u') : FlagsApart p c (if q then t else u) (if q then t' else u') := by
  split
  · exact ht
  · exact hu

/-- A consumed byte: the PHASE and the byte decide, no flag does (R100). -/
theorem flagsApart_receive (b : Byte) : FlagsApart p c (receive b s) (receive b (withFlags s p c)) := by
  unfold receive
  rw [withFlags_state, withFlags_phase]
  split
  · exact flagsApart_ite flagsApart_refl flagsApart_refl
  · exact flagsApart_ite flagsApart_refl flagsApart_refl
  · exact flagsApart_ite (flagsApart_of_keeps keepsFlags_accepted)
      (flagsApart_ite (flagsApart_of_keeps keepsFlags_rejected) flagsApart_otherByte)
  · exact flagsApart_ite flagsApart_refl flagsApart_refl
  · exact flagsApart_refl

/-! The instructions. -/

theorem outcomesApart_execCtrlP : OutcomesApart p c (execCtrlP s) (execCtrlP (withFlags s p c)) := by
  unfold execCtrlP
  rw [withFlags_state, withFlags_phase]
  split
  · exact .next (flagsApart_of_keeps (keepsFlags_sendThen _ fun _ _ _ => rfl))
  · exact .next (flagsApart_receive _)

theorem outcomesApart_execCtrlR : OutcomesApart p c (execCtrlR s) (execCtrlR (withFlags s p c)) := by
  unfold execCtrlR
  rw [withFlags_state, withFlags_phase]
  split
  · exact .next (flagsApart_of_keeps (keepsFlags_sendThen _ keepsFlags_createSession))
  · exact .next (flagsApart_receive _)

theorem keepsFlags_sendFrame (bs : List Byte) : KeepsFlags (sendFrame bs) :=
  fun s p c => keepsFlags_sendThen (encodeFrame bs) (fun _ _ _ => rfl) (loadChunk bs s) p c

theorem outcomesApart_execDataFrame : OutcomesApart p c (execDataFrame s) (execDataFrame (withFlags s p c)) := by
  unfold execDataFrame
  rw [withFlags_state, withFlags_phase, withFlags_chunkIdx, imageChunks_withFlags, currentChunk_withFlags]
  split
  · split
    · split
      · exact .next (flagsApart_of_keeps (keepsFlags_sendFrame _))
      · exact .fault _
    · exact .fault _
  · exact .next flagsApart_refl

/-- No instruction reads a flag. -/
theorem outcomesApart_exec (i : Instr) : OutcomesApart p c (exec i s) (exec i (withFlags s p c)) := by
  cases i with
  | ctrlP => exact outcomesApart_execCtrlP
  | ctrlR => exact outcomesApart_execCtrlR
  | ctrlK | ctrlT | ctrlC | ctrlE | ctrlO | ctrlF => exact .next (flagsApart_receive _)
  | dataFrame => exact outcomesApart_execDataFrame
  | nop => exact .next flagsApart_refl
  | crcInit | crcByte | start | clear | cancel => exact outcomesApart_whenAccepted (.next flagsApart_refl)
  | crcBlock | encode | check =>
    refine outcomesApart_whenAccepted ?_
    simp only [chunkBuffer_withFlags, frameBuffer_withFlags]
    split
    · exact .next flagsApart_refl
    · exact .fault _
  | reserved6 | reserved7 | reserved11 | reserved12 | reserved13 | reserved14 | reserved15 =>
    exact .next flagsApart_setCmdErr

/-! The FSM's turn. -/

theorem outcomesApart_runByte (b : Byte) : OutcomesApart p c (runByte b s) (runByte b (withFlags s p c)) := by
  unfold runByte
  split
  · exact outcomesApart_exec _
  · exact .next (flagsApart_receive b)

theorem outcomesApart_waitTurn : OutcomesApart p c (waitTurn s) (waitTurn (withFlags s p c)) := by
  unfold waitTurn
  rcases linkRead_cases s with ⟨n, ha, hl⟩ | ⟨b, q, hw, hq, hl⟩ | ⟨ha, hq, hp, hl⟩ | ⟨ha, hq, hl⟩ <;> rw [hl]
  · rw [linkRead_of_error (s := withFlags s p c) ha]
    exact .next flagsApart_refl
  · rw [linkRead_of_byte (s := withFlags s p c) hw hq]
    exact outcomesApart_runByte (s := { s with rxq := q, answer := .ok }) b
  · rw [linkRead_of_timeOut (s := withFlags s p c) ha hq hp]
    exact .next flagsApart_refl
  · rw [linkRead_of_empty (s := withFlags s p c) ha hq]
    exact .next flagsApart_refl

theorem outcomesApart_turn : OutcomesApart p c (turn s) (turn (withFlags s p c)) := by
  have hf : frameToSend (withFlags s p c) = frameToSend s := rfl
  unfold turn
  rw [withFlags_state, withFlags_phase, hf]
  split
  · exact outcomesApart_exec _
  · exact outcomesApart_waitTurn
  · exact outcomesApart_exec _
  · exact outcomesApart_waitTurn
  · exact outcomesApart_exec _
  · exact outcomesApart_waitTurn
  · exact .next flagsApart_refl
  · exact outcomesApart_waitTurn
  · exact .next flagsApart_refl

/-! The acts of the caller and the environment. -/

theorem flagsApart_whenNotBusy {t : State} :
    FlagsApart p c (whenNotBusy s t) (whenNotBusy (withFlags s p c) (withFlags t p c)) :=
  flagsApart_ite flagsApart_setCmdErr flagsApart_refl

/-- A write of FLAGS treats each flag by its own bit of the word (R36). -/
theorem flagsApart_clearFlags (v : Word) : FlagsApart p c (clearFlags v s) (clearFlags v (withFlags s p c)) := by
  have bit : ∀ f g b : Bool, (f && !b) = f ∨ (f && !b) = (g && !b) := by decide
  exact .mk _ _ (bit p s.protoViol _) (bit c s.cmdErr _)

theorem flagsApart_regStore (n : BitVec 4) (v : Word) :
    FlagsApart p c (regStore n v s) (regStore n v (withFlags s p c)) := by
  unfold regStore
  split
  · exact flagsApart_clearFlags v
  · exact flagsApart_whenNotBusy
  · exact flagsApart_whenNotBusy
  · exact flagsApart_whenNotBusy
  · exact flagsApart_whenNotBusy
  · exact flagsApart_refl

theorem flagsApart_bufWrite (w : Window) (i : Nat) (b : Byte) :
    FlagsApart p c (bufWrite w i b s) (bufWrite w i b (withFlags s p c)) := by
  refine flagsApart_ite ?_ flagsApart_setCmdErr
  cases w <;> exact flagsApart_whenNotBusy

theorem outcomesApart_bufRead (w : Window) (i : Nat) :
    OutcomesApart p c (bufRead w i s) (bufRead w i (withFlags s p c)) := by
  unfold bufRead
  rw [windowMem_withFlags]
  split
  · split
    · exact .next flagsApart_refl
    · exact .fault _
  · exact .next (.mk p true (.inl rfl) (.inr rfl))

theorem outcomesApart_imgPlace (a : Word) (b : Byte) :
    OutcomesApart p c (imgPlace a b s) (imgPlace a b (withFlags s p c)) := by
  unfold imgPlace
  rw [busy_withFlags, withFlags_img]
  split
  · exact .refused _
  · exact .next flagsApart_refl

theorem flagsApart_elapse (ms : Nat) : FlagsApart p c (elapse ms s) (elapse ms (withFlags s p c)) := by
  unfold elapse
  rw [withFlags_state, withFlags_phase]
  split
  · exact flagsApart_refl
  · exact flagsApart_refl

/-- Every input but a read of a register, whose data may be the flags. -/
theorem outcomesApart_perform {i : Input} (hi : ∀ n, i ≠ .regRead n) :
    OutcomesApart p c (perform i s) (perform i (withFlags s p c)) := by
  cases i with
  | turn => exact outcomesApart_turn
  | regWrite n v =>
    show OutcomesApart p c (regWrite n v s) (regWrite n v (withFlags s p c))
    unfold regWrite
    split
    · exact outcomesApart_exec _
    · exact .next (flagsApart_regStore n v)
  | regRead n => exact absurd rfl (hi n)
  | bufWrite w j b => exact .next (flagsApart_bufWrite w j b)
  | bufRead w j => exact outcomesApart_bufRead w j
  | elapse ms => exact .next (flagsApart_elapse ms)
  | imgPlace a b => exact outcomesApart_imgPlace a b
  | reset cut => exact .next (.mk false false (.inr rfl) (.inr rfl))
  | rx | errLink | timeOut => exact .next flagsApart_refl

/-- The one register that shows a flag is FLAGS (R40). -/
theorem regValue_withFlags {n : BitVec 4} (hn : n ≠ 2) : regValue n (withFlags s p c) = regValue n s := by
  have h2 : n.toNat ≠ 2 := fun e => hn (BitVec.eq_of_toNat_eq e)
  unfold regValue
  split
  case h_2 => exact absurd ‹_› h2
  all_goals rfl

end

/-- Settles O57: no operation reads a flag, so both runs do the same; a read of a register shows its value, which is
the same in both runs but for FLAGS. -/
theorem flagsChangeNoBehaviour : Obligations.FlagsChangeNoBehaviour := by
  unfold Obligations.FlagsChangeNoBehaviour
  intro s p c
  by_cases hr : ∃ n rest, s.inputs = .regRead n :: rest
  case pos =>
    obtain ⟨n, rest, hin⟩ := hr
    have hstep : step s = .next (regRead n { s with inputs := rest }) := step_of_input hin
    have hstep' : step (withFlags s p c) = .next (regRead n (withFlags { s with inputs := rest } p c)) :=
      step_of_input (s := withFlags s p c) hin
    rw [hstep, hstep']
    refine ⟨fun t ht => ?_, nofun, nofun⟩
    cases ht
    refine ⟨p, c, regValue n (withFlags { s with inputs := rest } p c), rfl, .inl rfl, .inl rfl, fun hne => ?_⟩
    exact regValue_withFlags fun e => hne rest (e ▸ hin)
  case neg =>
    have h : OutcomesApart p c (step s) (step (withFlags s p c)) := by
      rcases hin : s.inputs with _ | ⟨i, rest⟩
      · have hm : FsmMoves s s := .inl ⟨hin, rfl⟩
        have hm' : FsmMoves (withFlags s p c) (withFlags s p c) := .inl ⟨hin, rfl⟩
        rw [step_of_fsmMoves hm, step_of_fsmMoves hm']
        exact outcomesApart_turn
      · rw [step_of_input hin, step_of_input (s := withFlags s p c) hin]
        exact outcomesApart_perform (s := { s with inputs := rest }) fun n e => hr ⟨n, rest, e ▸ hin⟩
    generalize step s = o, step (withFlags s p c) = o' at h ⊢
    cases h with
    | next h =>
      refine ⟨fun t ht => ?_, nofun, nofun⟩
      cases ht
      obtain ⟨p', c', hp, hc⟩ := h
      exact ⟨p', c', _, rfl, hp, hc, fun _ => rfl⟩
    | fault e => exact ⟨fun _ he => (nomatch he), fun _ he => he, nofun⟩
    | refused e => exact ⟨fun _ he => (nomatch he), nofun, fun _ he => he⟩

end Sys2Proof.Proofs
end

section
/-! PROOFS of the family `10_state`, where a step stops (R45, R61, R252) and what a session keeps fixed (R41, R44, R75). -/

namespace Sys2Proof.Proofs

open Sys2Proof Sys2Proof.Machine Sys2Proof.Safety

/-! Unwritten bytes. -/

/-- CB[0..CB_LEN) is no operand exactly when one of its bytes is unwritten (R126, R148). -/
theorem chunkBuffer_eq_none_iff {s : State} (h : Inv s) :
    chunkBuffer s = none ↔ ∃ j, j < s.cbLen.toNat ∧ s.cb.read j = none := by
  simpa [chunkBuffer] using Memory.readBytes_eq_none_iff h.memories.cb 0 s.cbLen.toNat

/-- FB[0..259) is no operand exactly when one of its bytes is unwritten (R150). -/
theorem frameBuffer_eq_none_iff {s : State} (h : Inv s) :
    frameBuffer s = none ↔ ∃ j, j < 259 ∧ s.fb.read j = none := by
  simpa [frameBuffer] using Memory.readBytes_eq_none_iff h.memories.fb 0 259

section
variable {s : State} (hb : busy s = false)
include hb

theorem execCrcBlock_of_none (h : chunkBuffer s = none) : execCrcBlock s = .fault .unwrittenByte := by
  simp [execCrcBlock, whenAccepted, hb, h]

theorem execEncode_of_none (h : chunkBuffer s = none) : execEncode s = .fault .unwrittenByte := by
  simp [execEncode, whenAccepted, hb, h]

theorem execCheck_of_none (h : frameBuffer s = none) : execCheck s = .fault .unwrittenByte := by
  simp [execCheck, whenAccepted, hb, h]

end

theorem bufRead_of_none {s : State} {w : Window} {i : Nat} (hi : i < windowSize w) (h : (windowMem w s).read i = none) :
    bufRead w i s = .fault .unwrittenByte := by
  simp [bufRead, hi, h]

/-- Settles O21: on canonical memories an operand with an unwritten byte is no operand. -/
theorem unwrittenByteStops : Obligations.UnwrittenByteStops := by
  unfold Obligations.UnwrittenByteStops
  intro s h hb
  refine ⟨fun i hi hr => ?chunk, fun i hi hr => ?frame, fun i => bufRead_of_none (w := .cb),
    fun i => bufRead_of_none (w := .fb)⟩
  case chunk =>
    have hc := (chunkBuffer_eq_none_iff h).2 ⟨i, hi, hr⟩
    exact ⟨execCrcBlock_of_none hb hc, execEncode_of_none hb hc⟩
  case frame => exact execCheck_of_none hb ((frameBuffer_eq_none_iff h).2 ⟨i, hi, hr⟩)

/-! What can stop a step. -/

theorem whenAccepted_next (ok : Bool) (s t : State) : ∃ u, whenAccepted ok s (.next t) = .next u := by
  cases ok with
  | true => exact ⟨t, rfl⟩
  | false => exact ⟨setCmdErr s, rfl⟩

/-- A command that works on an operand stops only when it is accepted and there is no operand (R45). -/
theorem whenAccepted_operand {b : Bool} {s : State} {o : Host.Outcome State Fault Refusal} {e : Fault}
    {operand : Option (List Byte)} (hsome : ∀ c, operand = some c → ∃ t, o = .next t)
    (hnone : operand = none → o = .fault e) :
    (∃ t, whenAccepted (!b) s o = .next t) ∨ (whenAccepted (!b) s o = .fault e ∧ b = false ∧ operand = none) := by
  cases b with
  | true => exact .inl ⟨setCmdErr s, rfl⟩
  | false =>
    cases operand with
    | some c => exact .inl (hsome c rfl)
    | none => exact .inr ⟨hnone rfl, rfl, rfl⟩

theorem format_decodeCmd (w : Word) : (decodeCmd w).format = .cmd32 := by
  unfold decodeCmd; split <;> rfl

/-- What can stop a command (R106): CRC_BLOCK and ENCODE need CB, CHECK needs FB. -/
theorem command_next_or_fault {i : Instr} (hi : i.format = .cmd32) (s : State) :
    (∃ t, exec i s = .next t) ∨
    (exec i s = .fault .unwrittenByte ∧ busy s = false ∧
      ((i = .crcBlock ∨ i = .encode) ∧ chunkBuffer s = none ∨ i = .check ∧ frameBuffer s = none)) := by
  cases i with
  | ctrlP | ctrlK | ctrlR | ctrlT | ctrlC | ctrlE | ctrlO | ctrlF | dataFrame => cases hi
  | nop | reserved6 | reserved7 | reserved11 | reserved12 | reserved13 | reserved14 | reserved15 => exact .inl ⟨_, rfl⟩
  | crcInit | crcByte | start | clear | cancel => exact .inl (whenAccepted_next _ _ _)
  | crcBlock | encode =>
    refine (whenAccepted_operand (operand := chunkBuffer s) (fun c hc => ?_) (fun hc => ?_)).imp_right
      fun ⟨hf, hb, hn⟩ => ⟨hf, hb, .inl ⟨by simp, hn⟩⟩
    · rw [hc]; exact ⟨_, rfl⟩
    · rw [hc]
  | check =>
    refine (whenAccepted_operand (operand := frameBuffer s) (fun c hc => ?_) (fun hc => ?_)).imp_right
      fun ⟨hf, hb, hn⟩ => ⟨hf, hb, .inr ⟨rfl, hn⟩⟩
    · rw [hc]; exact ⟨_, rfl⟩
    · rw [hc]

/-- Outside SEND_FRAME the FSM's turn never stops. -/
theorem turn_next {s : State} (h : ¬ (s.state = .transferringChunks ∧ s.phase = .sendFrame)) :
    ∃ t, turn s = .next t := by
  have wait : reads s = true → ∃ t, waitTurn s = .next t := fun hr => (waitTurn_cases hr).imp fun _ ht => ht.1
  unfold turn
  split <;> rename_i hs hp
  · exact ⟨sendP s, by simp [exec, execCtrlP, hs, hp]⟩
  · exact wait (by simp [reads, hs, hp])
  · exact ⟨sendR s, by simp [exec, execCtrlR, hs, hp]⟩
  · exact wait (by simp [reads, hs, hp])
  · exact absurd ⟨hs, hp⟩ h
  · exact wait (by simp [reads, hs, hp])
  · exact ⟨endPause s, rfl⟩
  · exact wait (by simp [reads, hs, hp])
  · exact ⟨s, rfl⟩

/-- In SEND_FRAME the turn sends the frame of the current chunk, or stops where a byte of it was not placed (R168,
R252). -/
theorem turn_sendFrame_cases {s : State} (hs : s.state = .transferringChunks) (hp : s.phase = .sendFrame)
    (hk : s.chunkIdx.toNat < imageChunks s) :
    (∃ t, turn s = .next t) ∨ (turn s = .fault .imageByteNotPlaced ∧ currentChunk s = none) := by
  cases hc : currentChunk s with
  | some c =>
    exact .inl ⟨sendFrame c s, by rw [turn_of_sendFrame hs hp hc]; simp [frameOfChunk, exec, execDataFrame, *]⟩
  | none => exact .inr ⟨by simp [turn, frameToSend, frameOfChunk, exec, execDataFrame, *], rfl⟩

theorem bufRead_next_or_fault (w : Window) (i : Nat) (s : State) :
    (∃ t, bufRead w i s = .next t) ∨
    (bufRead w i s = .fault .unwrittenByte ∧ i < windowSize w ∧ (windowMem w s).read i = none) := by
  by_cases hi : i < windowSize w
  · cases hr : (windowMem w s).read i with
    | some b => exact .inl ⟨{ s with portData := fieldAt 0 b }, by simp [bufRead, hi, hr]⟩
    | none => exact .inr ⟨bufRead_of_none hi hr, hi, rfl⟩
  · exact .inl ⟨_, if_neg hi⟩

theorem imgPlace_next_or_refused (a : Word) (b : Byte) (s : State) :
    (∃ t, imgPlace a b s = .next t) ∨
    (imgPlace a b s = .refused .imageChangedDuringSession ∧ busy s = true ∧ s.img.read a.toNat ≠ some b) := by
  by_cases h : busy s = true ∧ s.img.read a.toNat ≠ some b
  · exact .inr ⟨by simp [imgPlace, h], h⟩
  · exact .inl ⟨_, if_neg (by simpa using h)⟩

/-! What a step keeps. -/

/-- What the session takes from outside (R44, R75). -/
def sessionInputs (s : State) : BitVec 32 × BitVec 8 × BitVec 16 × Memory × Params :=
  (s.imgLen, s.cfgMaxRetries, s.cfgRetryDelayMs, s.img, s.params)

theorem sessionInputs_createSession (s : State) : sessionInputs (createSession s) = sessionInputs s := by
  unfold createSession; dsimp only; split <;> rfl

theorem sessionInputs_accepted (s : State) : sessionInputs (accepted s) = sessionInputs s := by
  unfold accepted; dsimp only; split <;> rfl

theorem sessionInputs_rejected (s : State) : sessionInputs (rejected s) = sessionInputs s := by
  unfold rejected; dsimp only; split <;> rfl

theorem sessionInputs_otherByte (s : State) : sessionInputs (otherByte s) = sessionInputs s := by
  unfold otherByte
  split
  · exact sessionInputs_rejected (setProtoViol s)
  · rfl
  · rfl

theorem sessionInputs_received {s t : State} {b : Byte} (h : Received b s t) : sessionInputs t = sessionInputs s := by
  cases h with
  | acceptedChunk => exact sessionInputs_accepted s
  | rejectedChunk => exact sessionInputs_rejected s
  | otherAnswer => exact sessionInputs_otherByte s
  | linkReady | targetReady | writeComplete | discarded => rfl

/-- The FSM never changes what the session takes from outside. -/
theorem sessionInputs_turn {s t : State} (h : TurnCase s t) : sessionInputs t = sessionInputs s := by
  cases h with
  | sendsP => rcases sendP_cases s with ⟨-, e⟩ | ⟨n, -, e⟩ <;> rw [e] <;> rfl
  | sendsR =>
    rcases sendR_cases s with ⟨-, e⟩ | ⟨n, -, e⟩ <;> rw [e]
    · exact sessionInputs_createSession _
    · rfl
  | sendsFrame c => rcases sendFrame_cases c s with ⟨-, e⟩ | ⟨n, -, e⟩ <;> rw [e] <;> rfl
  | consumes b q => exact sessionInputs_received (s := { s with rxq := q, answer := .ok }) (receive_cases b _)
  | noStep | endsPause | readFails | timesOut => rfl

theorem sessionInputs_command {s t : State} (h : CommandCase s t) : sessionInputs t = sessionInputs s := by
  cases h <;> rfl

/-- Writes of what the session takes from outside are frozen while BUSY = 1 (R41). -/
theorem sessionInputs_store {s t : State} {v : Word} (h : StoreCase v s t) (hb : busy s = true) :
    sessionInputs t = sessionInputs s := by
  cases h with
  | ignored | refused | flags => rfl
  | imgLen hb' | maxRetries hb' | retryDelay hb' | cbLen hb' => rw [hb] at hb'; cases hb'

/-- Writing the byte already there changes no read. -/
theorem read_write_known {m : Memory} {a : Nat} {b : Byte} (h : m.read a = some b) (x : Nat) :
    (m.write a b).read x = m.read x := by
  by_cases hx : x = a
  · rw [hx, Memory.read_write_same, h]
  · exact Memory.read_write_other m a x b hx

/-- `t` holds what the session of `s` takes from outside, byte by byte of the image. -/
structure SessionInputsKept (s t : State) : Prop where
  imgLen : t.imgLen = s.imgLen
  maxRetries : t.cfgMaxRetries = s.cfgMaxRetries
  retryDelay : t.cfgRetryDelayMs = s.cfgRetryDelayMs
  img : ∀ a, t.img.read a = s.img.read a

theorem kept_of_sessionInputs_eq {s t : State} (h : sessionInputs t = sessionInputs s) : SessionInputsKept s t := by
  simp only [sessionInputs, Prod.mk.injEq] at h
  obtain ⟨hlen, hmax, hdelay, himg, -⟩ := h
  exact ⟨hlen, hmax, hdelay, fun a => by rw [himg]⟩

/-- In a session an act of another agent changes nothing of what the session takes from outside, a byte placed again
being the byte already there (R61). -/
theorem kept_input {s t : State} {i : Input} (h : InputCase s i t) (hs : busy s = true) (ht : busy t = true) :
    SessionInputsKept s t := by
  cases h with
  | command v hc => exact kept_of_sessionInputs_eq (sessionInputs_command hc)
  | store n v _ hc => exact kept_of_sessionInputs_eq (sessionInputs_store hc hs)
  | bufWrite w => cases w <;> exact kept_of_sessionInputs_eq rfl
  | imgPlace a b hr => exact ⟨rfl, rfl, rfl, read_write_known (hr hs)⟩
  | reset => cases ht
  | regRead | bufRefused | bufRead | bufReadOutside | rx | errLink | timeOut | elapse =>
    exact kept_of_sessionInputs_eq rfl

/-- The state the FSM moves from holds the same (R160). -/
theorem sessionInputs_of_fsmMoves {s s0 : State} (h : FsmMoves s s0) : sessionInputs s0 = sessionInputs s := by
  rcases h with ⟨-, rfl⟩ | ⟨rest, -, rfl⟩ <;> rfl

/-- A step within a session keeps what the session takes from outside (R75). -/
theorem kept_step {s t : State} (h : step s = .next t) (hs : busy s = true) (ht : busy t = true) :
    SessionInputsKept s t := by
  rcases step_cases h with ⟨s0, hm, htc⟩ | ⟨i, rest, -, -, hic⟩
  · exact kept_of_sessionInputs_eq ((sessionInputs_turn htc).trans (sessionInputs_of_fsmMoves hm))
  · obtain ⟨hlen, hmax, hdelay, himg⟩ := kept_input hic hs ht
    exact ⟨hlen, hmax, hdelay, himg⟩

theorem params_store {s t : State} {v : Word} (h : StoreCase v s t) : t.params = s.params := by
  cases h <;> rfl

theorem params_eq_of_sessionInputs {s t : State} (h : sessionInputs t = sessionInputs s) : t.params = s.params :=
  congrArg (fun x => x.2.2.2.2) h

theorem params_input {s t : State} {i : Input} (h : InputCase s i t) : t.params = s.params := by
  cases h with
  | command v hc => exact params_eq_of_sessionInputs (sessionInputs_command hc)
  | store n v _ hc => exact params_store hc
  | bufWrite w => cases w <;> rfl
  | regRead | bufRefused | bufRead | bufReadOutside | rx | errLink | timeOut | elapse | imgPlace | reset => rfl

/-- Canonical memories that agree in every byte agree in every block (R6). -/
theorem readBytes_congr {m n : Memory} {size : Nat} (hm : m.wf size) (hn : n.wf size)
    (h : ∀ a, m.read a = n.read a) (a k : Nat) : m.readBytes a k = n.readBytes a k := by
  refine Option.ext fun bs => ?_
  rw [Memory.readBytes_eq_some_iff hm, Memory.readBytes_eq_some_iff hn]
  simp only [h]

/-- No step changes the parameters of the step relation (R44). -/
theorem params_step {s t : State} (h : step s = .next t) : t.params = s.params := by
  rcases step_cases h with ⟨s0, hm, htc⟩ | ⟨i, rest, -, -, hic⟩
  · exact params_eq_of_sessionInputs ((sessionInputs_turn htc).trans (sessionInputs_of_fsmMoves hm))
  · exact params_input (s := { s with inputs := rest }) hic

/-- Settles O58: what the session takes from outside is kept, and a frame is made of nothing else. -/
theorem sessionInputsStayFixed : Obligations.SessionInputsStayFixed := by
  unfold Obligations.SessionInputsStayFixed
  refine ⟨fun s t h hs hst ht => ?session, fun s t hst => params_step hst⟩
  case session =>
    obtain ⟨hlen, hmax, hdelay, hread⟩ := kept_step hst hs ht
    have hwf := (stepKeepsInvariant s t h hst).memories.img
    refine ⟨hlen, hmax, hdelay, hread, fun k => ?_⟩
    simp only [frameOf, chunkOf, hlen, readBytes_congr hwf h.memories.img hread]

/-- The FSM's step from a state that meets the invariant never asks for a chunk past the last one (R141). -/
theorem turn_next_or_notPlaced {s : State} (h : Inv s) :
    (∃ t, turn s = .next t) ∨
    (turn s = .fault .imageByteNotPlaced ∧ s.state = .transferringChunks ∧ s.phase = .sendFrame ∧
      currentChunk s = none) := by
  by_cases hf : s.state = .transferringChunks ∧ s.phase = .sendFrame
  · obtain ⟨hs, hp⟩ := hf
    have hk := (h.counters.chunk hs (by rw [hp]; nofun)).1
    exact (turn_sendFrame_cases hs hp hk).imp_right fun ⟨hf, hc⟩ => ⟨hf, hs, hp, hc⟩
  · exact .inl (turn_next hf)

theorem frameOf_eq_none {s : State} (h : currentChunk s = none) : frameOf s s.chunkIdx.toNat = none :=
  Option.map_eq_none_iff.2 h

/-- Either the FSM moves, or the agent of the oldest input (R7). -/
theorem fsmMoves_or_input (s : State) :
    (∃ s0, FsmMoves s s0) ∨ ∃ i rest, s.inputs = i :: rest ∧ i ≠ .turn := by
  rcases h : s.inputs with _ | ⟨i, rest⟩
  · exact .inl ⟨s, .inl ⟨h, rfl⟩⟩
  · by_cases hi : i = .turn
    · exact .inl ⟨_, .inr ⟨rest, hi ▸ h, rfl⟩⟩
    · exact .inr ⟨i, rest, rfl, hi⟩

/-- The FSM's step from a state that meets the invariant stops only where a byte of the current chunk was not placed. -/
theorem step_next_or_notPlaced {s s0 : State} (h : Inv s) (hm : FsmMoves s s0) :
    (∃ t, step s = .next t) ∨
    (step s = .fault .imageByteNotPlaced ∧ s.state = .transferringChunks ∧ s.phase = .sendFrame ∧
      currentChunk s = none) := by
  have ht := turn_next_or_notPlaced (inv_of_fsmMoves h hm)
  rw [step_of_fsmMoves hm]
  rcases hm with ⟨-, rfl⟩ | ⟨rest, -, rfl⟩ <;> exact ht

/-- A caller's command from a state that meets the invariant stops only where it needs an unwritten byte (R45). -/
theorem command_next_or_unwritten {s : State} (h : Inv s) (w : Word) :
    (∃ t, exec (decodeCmd w) s = .next t) ∨
    (exec (decodeCmd w) s = .fault .unwrittenByte ∧ busy s = false ∧
      (((decodeCmd w = .crcBlock ∨ decodeCmd w = .encode) ∧ ∃ j, j < s.cbLen.toNat ∧ s.cb.read j = none) ∨
        (decodeCmd w = .check ∧ ∃ j, j < 259 ∧ s.fb.read j = none))) := by
  rw [← chunkBuffer_eq_none_iff h, ← frameBuffer_eq_none_iff h]
  exact command_next_or_fault (format_decodeCmd w) s

/-- Settles O59: the agent that moves says which stop is possible; the invariant rules out a chunk past the last one, and
its canonical memories turn a missing operand into a missing byte. -/
theorem stopsOnlyWhereNoResultIsDefined : Obligations.StopsOnlyWhereNoResultIsDefined := by
  unfold Obligations.StopsOnlyWhereNoResultIsDefined
  intro s h
  rcases fsmMoves_or_input s with ⟨s0, hm⟩ | ⟨i, rest, hin, hi⟩
  · rcases step_next_or_notPlaced h hm with ht | ⟨hf, hs, hp, hc⟩
    · exact .inl ht
    · exact .inr (.inr (.inr (.inl ⟨hf, ⟨s0, hm⟩, hs, hp, frameOf_eq_none hc⟩)))
  · have h0 : Inv { s with inputs := rest } := inv_of_invView_eq h rfl
    rw [step_of_input hin]
    cases i with
    | turn => exact absurd rfl hi
    | regWrite n w =>
      by_cases hn : n = 0
      · subst hn
        rcases command_next_or_unwritten h0 w with ht | ⟨hf, hb, hneed⟩
        · exact .inl ht
        · refine .inr (.inl ⟨hf, hb, w, rest, hin, hneed.imp (fun ⟨hd, hj⟩ => ⟨?_, hj⟩) fun ⟨hd, hj⟩ => ⟨?_, hj⟩⟩)
          · exact hd.imp (congrArg Except.ok) (congrArg Except.ok)
          · exact congrArg Except.ok hd
      · exact .inl ⟨_, if_neg hn⟩
    | bufRead w j =>
      rcases bufRead_next_or_fault w j { s with inputs := rest } with ht | ⟨hf, hj, hr⟩
      · exact .inl ht
      · exact .inr (.inr (.inl ⟨hf, w, j, rest, hin, hj, hr⟩))
    | imgPlace a b =>
      rcases imgPlace_next_or_refused a b { s with inputs := rest } with ht | ⟨hf, hb, hr⟩
      · exact .inl ht
      · exact .inr (.inr (.inr (.inr ⟨hf, hb, a, b, rest, hin, hr⟩)))
    | regRead | bufWrite | rx | errLink | timeOut | elapse | reset => exact .inl ⟨_, rfl⟩

end Sys2Proof.Proofs
end

section
/-! PROOFS of the family `20_memory`: the two buffer windows, one byte at one index (R40, R41, R62). -/

namespace Sys2Proof.Proofs

open Sys2Proof Sys2Proof.Machine Sys2Proof.Safety

@[simp] theorem windowMem_setWindow_same (w : Window) (m : Memory) (s : State) : windowMem w (setWindow w m s) = m := by
  cases w <;> rfl

theorem windowMem_setWindow_other {w w' : Window} (h : w' ≠ w) (m : Memory) (s : State) :
    windowMem w' (setWindow w m s) = windowMem w' s := by
  cases w with
  | cb => cases w' with
    | cb => exact absurd rfl h
    | fb => rfl
  | fb => cases w' with
    | cb => rfl
    | fb => exact absurd rfl h

/-- A window is replaced in its own buffer alone: with both buffers set aside nothing has changed. -/
theorem setWindow_withBuffers (w : Window) (m cb fb : Memory) (s : State) :
    { setWindow w m s with cb := cb, fb := fb } = { s with cb := cb, fb := fb } := by
  cases w <;> rfl

/-- After a byte is written every other byte of both windows reads as before. -/
theorem read_setWindow_write_other {w w' : Window} {i a : Nat} (h : (w', a) ≠ (w, i)) (b : Byte) (s : State) :
    (windowMem w' (setWindow w ((windowMem w s).write i b) s)).read a = (windowMem w' s).read a := by
  by_cases hw : w' = w
  · subst hw
    rw [windowMem_setWindow_same]
    exact Memory.read_write_other _ i a b fun ha => h (by rw [ha])
  · rw [windowMem_setWindow_other hw]

theorem bufWrite_of_not_busy {s : State} {w : Window} {i : Nat} (hb : busy s = false) (hi : i < windowSize w)
    (b : Byte) : bufWrite w i b s = setWindow w ((windowMem w s).write i b) s :=
  (if_pos hi).trans (whenNotBusy_of_not_busy hb _)

/-- A write outside the window only sets CMD_ERR, BUSY or not (R62). -/
theorem bufWrite_outside {w : Window} {i : Nat} (hi : windowSize w ≤ i) (b : Byte) (s : State) :
    bufWrite w i b s = setCmdErr s := if_neg (Nat.not_lt.2 hi)

theorem bufRead_of_some {s : State} {w : Window} {i : Nat} {b : Byte} (hi : i < windowSize w)
    (h : (windowMem w s).read i = some b) : bufRead w i s = .next { s with portData := fieldAt 0 b } := by
  simp [bufRead, hi, h]

/-- A read outside the window shows 0 and sets CMD_ERR (R62, log entry 17). -/
theorem bufRead_outside {w : Window} {i : Nat} (hi : windowSize w ≤ i) (s : State) :
    bufRead w i s = .next { setCmdErr s with portData := 0 } := if_neg (Nat.not_lt.2 hi)

/-- A field at bit 0 is the value itself, zeros above (R40). -/
theorem fieldAt_zero {n : Nat} (v : BitVec n) : fieldAt 0 v = v.setWidth 32 := BitVec.shiftLeft_zero _

/-- Settles O46: a write in range replaces one window by a memory that differs at one index; an index out of range
reaches no memory. -/
theorem bufferWindowsMoveOneByte : Obligations.BufferWindowsMoveOneByte := by
  unfold Obligations.BufferWindowsMoveOneByte
  refine ⟨⟨rfl, rfl, fun _ => ⟨rfl, rfl⟩⟩, fun s w i b rest => ⟨?write, ?writeOutside, ?read, ?readOutside⟩⟩
  case write =>
    intro hb hi h
    refine ⟨setWindow w ((windowMem w s).write i b) { s with inputs := rest }, ?step, ?same, ?other, ?frame⟩
    case step =>
      rw [step_of_input h]
      exact congrArg _ (bufWrite_of_not_busy (s := { s with inputs := rest }) hb hi b)
    case same => rw [windowMem_setWindow_same, Memory.read_write_same]
    case other => exact fun w' a hne => read_setWindow_write_other hne b { s with inputs := rest }
    case frame => exact setWindow_withBuffers w _ s.cb s.fb _
  case writeOutside =>
    intro hi h
    rw [step_of_input h]
    exact congrArg _ (bufWrite_outside hi b _)
  case read =>
    intro hi hr h
    rw [step_of_input h, ← fieldAt_zero]
    exact bufRead_of_some (s := { s with inputs := rest }) hi hr
  case readOutside =>
    intro hi h
    rw [step_of_input h]
    exact bufRead_outside hi _

end Sys2Proof.Proofs
end

section
/-! PROOFS of the family `20_memory`: what a step does to the two streams of the link, TX (R63, R162, R165, R168) and RXQ
(R64, R202, R205). -/

namespace Sys2Proof.Proofs

open Sys2Proof Sys2Proof.Machine Sys2Proof.Safety

/-! DATA_FRAME, the one instruction that sends from memory (R72, R168). -/

/-- Outside SEND_FRAME no frame is sent (R72). -/
theorem execDataFrame_outside {s : State} (h : ¬ (s.state = .transferringChunks ∧ s.phase = .sendFrame)) :
    execDataFrame s = .next s := by
  unfold execDataFrame
  split
  · exact absurd ⟨‹_›, ‹_›⟩ h
  · rfl

section
variable {s : State} (hs : s.state = .transferringChunks) (hp : s.phase = .sendFrame)
include hs hp

theorem execDataFrame_pastLast (hk : imageChunks s ≤ s.chunkIdx.toNat) : execDataFrame s = .fault .noSuchChunk := by
  simp [execDataFrame, hs, hp, Nat.not_lt.2 hk]

theorem execDataFrame_notPlaced (hk : s.chunkIdx.toNat < imageChunks s) (hc : currentChunk s = none) :
    execDataFrame s = .fault .imageByteNotPlaced := by
  simp [execDataFrame, hs, hp, hk, hc]

end

/-- Settles O35: DATA_FRAME reads none of its fields, and its three guards are the three cases. -/
theorem dataFrameOnlyInSendFrame : Obligations.DataFrameOnlyInSendFrame := by
  unfold Obligations.DataFrameOnlyInSendFrame
  exact fun s p f k => ⟨execDataFrame_outside, execDataFrame_pastLast, execDataFrame_notPlaced⟩

/-! Both streams: what neither reads a byte nor sends one leaves them alone. -/

/-- The two byte streams between the block and the link: what has arrived and what has been sent (R43). -/
def linkStreams (s : State) : List Byte × List Byte := (s.rxq, s.txh)

theorem rxq_of_linkStreams {s t : State} (h : linkStreams t = linkStreams s) : t.rxq = s.rxq := congrArg Prod.fst h

theorem txh_of_linkStreams {s t : State} (h : linkStreams t = linkStreams s) : t.txh = s.txh := congrArg Prod.snd h

theorem linkStreams_createSession (s : State) : linkStreams (createSession s) = linkStreams s := by
  unfold createSession; dsimp only; split <;> rfl

theorem rxq_createSession (s : State) : (createSession s).rxq = s.rxq :=
  rxq_of_linkStreams (linkStreams_createSession s)

theorem txh_createSession (s : State) : (createSession s).txh = s.txh :=
  txh_of_linkStreams (linkStreams_createSession s)

theorem linkStreams_accepted (s : State) : linkStreams (accepted s) = linkStreams s := by
  unfold accepted; dsimp only; split <;> rfl

theorem linkStreams_rejected (s : State) : linkStreams (rejected s) = linkStreams s := by
  unfold rejected; dsimp only; split <;> rfl

theorem linkStreams_otherByte (s : State) : linkStreams (otherByte s) = linkStreams s := by
  unfold otherByte
  split
  · exact linkStreams_rejected (setProtoViol s)
  · rfl
  · rfl

/-- The effect of a byte already taken touches neither stream. -/
theorem linkStreams_receive (b : Byte) (s : State) : linkStreams (receive b s) = linkStreams s := by
  have hr := receive_cases b s
  generalize receive b s = t at hr ⊢
  cases hr with
  | acceptedChunk => exact linkStreams_accepted s
  | rejectedChunk => exact linkStreams_rejected s
  | otherAnswer => exact linkStreams_otherByte s
  | linkReady | targetReady | writeComplete | discarded => rfl

theorem rxq_receive (b : Byte) (s : State) : (receive b s).rxq = s.rxq := rxq_of_linkStreams (linkStreams_receive b s)

theorem txh_receive (b : Byte) (s : State) : (receive b s).txh = s.txh := txh_of_linkStreams (linkStreams_receive b s)

theorem linkStreams_command {s t : State} (h : CommandCase s t) : linkStreams t = linkStreams s := by
  cases h <;> rfl

theorem linkStreams_store {s t : State} {v : Word} (h : StoreCase v s t) : linkStreams t = linkStreams s := by
  cases h <;> rfl

theorem linkStreams_setWindow (w : Window) (m : Memory) (s : State) : linkStreams (setWindow w m s) = linkStreams s := by
  cases w <;> rfl

/-! RXQ. -/

/-- An act of another agent appends the byte that arrives, or leaves RXQ alone (R64, R205). -/
theorem rxq_input {s t : State} {i : Input} (h : InputCase s i t) :
    t.rxq = s.rxq ∨ ∃ b, i = .rx b ∧ t.rxq = s.rxq ++ [b] := by
  cases h with
  | rx b => exact .inr ⟨b, rfl, rfl⟩
  | command v hc => exact .inl (rxq_of_linkStreams (linkStreams_command hc))
  | store n v _ hc => exact .inl (rxq_of_linkStreams (linkStreams_store hc))
  | bufWrite w => exact .inl (rxq_of_linkStreams (linkStreams_setWindow w _ s))
  | regRead | bufRefused | bufRead | bufReadOutside | errLink | timeOut | elapse | imgPlace | reset => exact .inl rfl

/-- The FSM's turn takes the head of RXQ in a PHASE that reads, or leaves RXQ alone (R202, R205). -/
theorem rxq_turn {s t : State} (h : TurnCase s t) :
    t.rxq = s.rxq ∨ ∃ b, reads s = true ∧ LinkWorks s ∧ s.rxq = b :: t.rxq := by
  cases h with
  | consumes b q hr hw hq => exact .inr ⟨b, hr, hw, by rw [rxq_receive, hq]⟩
  | sendsP => rcases sendP_cases s with ⟨-, e⟩ | ⟨n, -, e⟩ <;> exact .inl (by rw [e]; rfl)
  | sendsR =>
    rcases sendR_cases s with ⟨-, e⟩ | ⟨n, -, e⟩ <;> rw [e]
    · exact .inl (rxq_createSession _)
    · exact .inl rfl
  | sendsFrame c => rcases sendFrame_cases c s with ⟨-, e⟩ | ⟨n, -, e⟩ <;> exact .inl (by rw [e]; rfl)
  | noStep | endsPause | readFails | timesOut => exact .inl rfl

theorem rxq_of_fsmMoves {s s0 : State} (h : FsmMoves s s0) : s0.rxq = s.rxq := by
  rcases h with ⟨-, rfl⟩ | ⟨rest, -, rfl⟩ <;> rfl

/-- The turn of a PHASE that reads, with a byte there to be read (R100, R202). -/
theorem turn_of_byte {s : State} {b : Byte} {q : List Byte} (hr : reads s = true) (hw : LinkWorks s)
    (hq : s.rxq = b :: q) : turn s = .next (receive b { s with rxq := q, answer := .ok }) := by
  simp only [turn_of_reads hr, waitTurn, linkRead_of_byte hw hq]
  exact runByte_eq (s := { s with rxq := q, answer := .ok }) hr b

/-- Settles O52: a byte enters RXQ by its arrival alone and leaves it by LinkRead alone. -/
theorem receiveQueueIsNeverFlushed : Obligations.ReceiveQueueIsNeverFlushed := by
  unfold Obligations.ReceiveQueueIsNeverFlushed
  refine ⟨fun s b rest h => step_of_input h, ?taken, ?kept⟩
  case taken =>
    intro s s0 b q hm hr hw hq
    exact ⟨_, (step_of_fsmMoves hm).trans (turn_of_byte hr hw hq), rxq_receive b _⟩
  case kept =>
    intro s t h
    rcases step_cases h with ⟨s0, hm, ht⟩ | ⟨i, rest, hin, -, hi⟩
    · rw [← rxq_of_fsmMoves hm]
      exact (rxq_turn ht).imp_right fun ⟨b, hr, hw, hq⟩ => .inr ⟨s0, b, hm, hr, hw, hq⟩
    · exact (rxq_input hi).imp_right fun ⟨b, hb, hq⟩ => .inl ⟨b, rest, hb ▸ hin, hq⟩

/-! TX. -/

/-- What a step from `s` may put on the link (R63, R94): nothing, the code its PHASE sends, or a leading part of the
current chunk's frame. -/
def MayTransmit (s : State) (out : List Byte) : Prop :=
  out = [] ∨
  (s.state = .awaitingLinkReady ∧ s.phase = .sendP ∧ out = [Config.codeByte .p]) ∨
  (s.state = .sendingHandshake ∧ s.phase = .sendR ∧ out = [Config.codeByte .r]) ∨
  (s.state = .transferringChunks ∧ s.phase = .sendFrame ∧
    ∃ f, frameOf s s.chunkIdx.toNat = some f ∧ ∃ j, out = f.take j)

/-- `t` follows `s` with TX extended by what `s` may put on the link. -/
def Transmits (s t : State) : Prop := ∃ out, t.txh = s.txh ++ out ∧ MayTransmit s out

theorem transmits_nothing {s t : State} (h : t.txh = s.txh) : Transmits s t :=
  ⟨[], h.trans (List.append_nil _).symm, .inl rfl⟩

theorem frameOf_of_currentChunk {s : State} {c : List Byte} (h : currentChunk s = some c) :
    frameOf s s.chunkIdx.toNat = some (encodeFrame c) := congrArg (Option.map encodeFrame) h

theorem mayTransmit_frame {s : State} {c : List Byte} (hs : s.state = .transferringChunks) (hp : s.phase = .sendFrame)
    (hc : currentChunk s = some c) (j : Nat) : MayTransmit s ((encodeFrame c).take j) :=
  .inr (.inr (.inr ⟨hs, hp, encodeFrame c, frameOf_of_currentChunk hc, j, rfl⟩))

/-- An act of another agent sends nothing, but a reset may cut a frame that is being sent (R251). -/
theorem transmits_input {s t : State} {i : Input} (h : InputCase s i t) : Transmits s t := by
  cases h with
  | reset cut =>
    rcases cutFrame_cases cut s with ⟨c, ⟨hs, hp, -, hc⟩, e⟩ | ⟨-, e⟩
    · exact ⟨cutFrame cut s, rfl, e ▸ mayTransmit_frame hs hp hc _⟩
    · exact ⟨cutFrame cut s, rfl, .inl e⟩
  | command v hc => exact transmits_nothing (txh_of_linkStreams (linkStreams_command hc))
  | store n v _ hc => exact transmits_nothing (txh_of_linkStreams (linkStreams_store hc))
  | bufWrite w => exact transmits_nothing (txh_of_linkStreams (linkStreams_setWindow w _ s))
  | regRead | bufRefused | bufRead | bufReadOutside | rx | errLink | timeOut | elapse | imgPlace =>
    exact transmits_nothing rfl

/-- The FSM's turn sends in the three sending PHASEs, and there only what the PHASE calls for (R162, R165, R168). -/
theorem transmits_turn {s t : State} (h : TurnCase s t) : Transmits s t := by
  cases h with
  | sendsP hs hp =>
    rcases sendP_cases s with ⟨-, e⟩ | ⟨n, -, e⟩ <;> rw [e]
    · exact ⟨[Config.codeByte .p], rfl, .inr (.inl ⟨hs, hp, rfl⟩)⟩
    · exact transmits_nothing rfl
  | sendsR hs hp =>
    rcases sendR_cases s with ⟨-, e⟩ | ⟨n, -, e⟩ <;> rw [e]
    · exact ⟨[Config.codeByte .r], txh_createSession _, .inr (.inr (.inl ⟨hs, hp, rfl⟩))⟩
    · exact transmits_nothing rfl
  | sendsFrame c hs hp _ hc =>
    rcases sendFrame_cases c s with ⟨-, e⟩ | ⟨n, -, e⟩ <;> rw [e]
    · exact ⟨encodeFrame c, rfl, List.take_length (l := encodeFrame c) ▸ mayTransmit_frame hs hp hc _⟩
    · exact ⟨sentBeforeFailure n (encodeFrame c), rfl, mayTransmit_frame hs hp hc _⟩
  | consumes b q => exact transmits_nothing (txh_receive b _)
  | noStep | endsPause | readFails | timesOut => exact transmits_nothing rfl

/-- Settles O51: the input taken is no part of the position, the image or TX, and whoever moves then transmits only what
the position allows. -/
theorem onlySendPhasesTransmit : Obligations.OnlySendPhasesTransmit := by
  unfold Obligations.OnlySendPhasesTransmit
  intro s t h
  rcases step_cases h with ⟨s0, ⟨-, rfl⟩ | ⟨rest, -, rfl⟩, ht⟩ | ⟨i, rest, -, -, hi⟩
  · exact transmits_turn ht
  · exact transmits_turn (s := { s with inputs := rest }) ht
  · exact transmits_input (s := { s with inputs := rest }) hi

end Sys2Proof.Proofs
end

section
/-! PROOFS of the family `30_encoding`: the three formats, decoded and encoded (R90 to R96, R105, R106). -/

namespace Sys2Proof.Proofs

open Sys2Proof Sys2Proof.Machine Sys2Proof.Safety

/-! Control codes (R91 to R93). -/

/-- The row of the opcode table of each control code. -/
def codeInstr : ControlCode → Instr
  | .p => .ctrlP
  | .k => .ctrlK
  | .r => .ctrlR
  | .t => .ctrlT
  | .c => .ctrlC
  | .e => .ctrlE
  | .o => .ctrlO
  | .f => .ctrlF

@[simp] theorem encode_codeInstr (code : ControlCode) : encode (codeInstr code) = .ctrl8 (Config.codeByte code) := by
  cases code <;> rfl

@[simp] theorem decodeCtrl_codeByte (code : ControlCode) : decodeCtrl (Config.codeByte code) = .ok (codeInstr code) := by
  cases code <;> rfl

@[simp] theorem format_codeInstr (code : ControlCode) : (codeInstr code).format = .ctrl8 := by
  cases code <;> rfl

/-- An instruction of one byte is a control code. -/
theorem exists_code_of_format {i : Instr} (h : i.format = .ctrl8) : ∃ code, i = codeInstr code := by
  cases i with
  | ctrlP => exact ⟨.p, rfl⟩
  | ctrlK => exact ⟨.k, rfl⟩
  | ctrlR => exact ⟨.r, rfl⟩
  | ctrlT => exact ⟨.t, rfl⟩
  | ctrlC => exact ⟨.c, rfl⟩
  | ctrlE => exact ⟨.e, rfl⟩
  | ctrlO => exact ⟨.o, rfl⟩
  | ctrlF => exact ⟨.f, rfl⟩
  | _ => cases h

/-- The decoder reads a code from no byte but the code's own (R93). -/
theorem exists_code_of_decodeCtrl {b : Byte} {i : Instr} (h : decodeCtrl b = .ok i) :
    ∃ code, b = Config.codeByte code ∧ i = codeInstr code := by
  unfold decodeCtrl at h
  split_ifs at h with hp hk hr ht hc he ho hf <;> cases h
  exacts [⟨.p, hp, rfl⟩, ⟨.k, hk, rfl⟩, ⟨.r, hr, rfl⟩, ⟨.t, ht, rfl⟩, ⟨.c, hc, rfl⟩, ⟨.e, he, rfl⟩, ⟨.o, ho, rfl⟩,
    ⟨.f, hf, rfl⟩]

/-! Command words (R105, R106). -/

/-- OP is the number in the low four bits (R105). -/
theorem toNat_cmdOp (w : Word) : (cmdOp w).toNat = w.toNat % 16 := by simp [cmdOp]

@[simp] theorem cmdOp_cmdWord (op : BitVec 4) (arg : Byte) : cmdOp (cmdWord op arg) = op := by
  refine BitVec.eq_of_getLsbD_eq fun i hi => ?_
  have h8 : i < 8 := by omega
  simp [cmdOp, cmdWord, hi, h8, show i < 32 by omega]

@[simp] theorem cmdArg_cmdWord (op : BitVec 4) (arg : Byte) : cmdArg (cmdWord op arg) = arg := by
  refine BitVec.eq_of_getLsbD_eq fun i hi => ?_
  have hop : op.getLsbD (8 + i) = false := BitVec.getLsbD_of_ge op (8 + i) (by omega)
  simp [cmdArg, cmdWord, hi, hop, show 8 + i < 32 by omega]

/-- The command depends on OP and ARG alone (R105). -/
theorem decodeCmd_congr {v w : Word} (hop : cmdOp v = cmdOp w) (harg : cmdArg v = cmdArg w) :
    decodeCmd v = decodeCmd w := by
  simp only [decodeCmd, hop, harg]

/-- Settles O1, one case for each constructor: the codes and the commands without an operand are fixed words, CRC_BYTE's
operand is the ARG of its word, and a frame is read back field by field. -/
theorem encodeThenDecodeGivesInstruction : Obligations.EncodeThenDecodeGivesInstruction := by
  unfold Obligations.EncodeThenDecodeGivesInstruction
  intro i hi
  cases i with
  | ctrlP | ctrlK | ctrlR | ctrlT | ctrlC | ctrlE | ctrlO | ctrlF => rfl
  | dataFrame p f k => exact decodeFrame_frameBytes (by simpa [Instr.WellFormed] using hi) f k
  | crcByte arg => simp [decode, encode, decodeCmd]
  | nop | crcInit | crcBlock | encode | check | start | clear | cancel => rfl
  | reserved6 | reserved7 | reserved11 | reserved12 | reserved13 | reserved14 | reserved15 => rfl

/-- Settles O2: both sides say that `b` and `i` are the byte and the row of one control code. -/
theorem controlCodeIsExactByteMatch : Obligations.ControlCodeIsExactByteMatch := by
  unfold Obligations.ControlCodeIsExactByteMatch
  intro b i
  constructor
  · intro h
    obtain ⟨code, rfl, rfl⟩ := exists_code_of_decodeCtrl h
    exact ⟨format_codeInstr code, encode_codeInstr code⟩
  · rintro ⟨hf, he⟩
    obtain ⟨code, rfl⟩ := exists_code_of_format hf
    obtain rfl : Config.codeByte code = b := by simpa using he
    exact decodeCtrl_codeByte code

/-- Settles O4: words that agree in those bits have the same OP and the same ARG. -/
theorem commandIgnoresUnusedBits : Obligations.CommandIgnoresUnusedBits := by
  unfold Obligations.CommandIgnoresUnusedBits
  intro v w hop harg
  refine congrArg Except.ok (decodeCmd_congr ?_ ?_)
  · refine BitVec.eq_of_getLsbD_eq fun i hi => ?_
    simpa [cmdOp, hi] using hop i hi
  · refine BitVec.eq_of_getLsbD_eq fun i hi => ?_
    simpa [cmdArg, hi] using harg (8 + i) (by omega) (by omega)

/-! The data frame (R95, R96). -/

/-- Any 259 bytes are 256 bytes of payload and three bytes more (R95). -/
theorem exists_layout_of_length {bytes : List Byte} (h : bytes.length = 259) :
    ∃ p f lo hi, p.length = Config.chunkSize ∧ bytes = p ++ [f, lo, hi] := by
  obtain ⟨f, lo, hi, htail⟩ := List.length_eq_three.1 (show (bytes.drop 256).length = 3 by simp [h])
  exact ⟨bytes.take 256, f, lo, hi, by simp [h], by rw [← htail, List.take_append_drop]⟩

/-- What the flag byte makes of 259 bytes (R95, R96). -/
theorem decodeFrame_layout {p : List Byte} (hp : p.length = Config.chunkSize) (f lo hi : Byte) :
    decodeFrame (p ++ [f, lo, hi]) =
      if f = flagByte true then .ok (.dataFrame p true (u16OfBytes lo hi))
      else if f = flagByte false then .ok (.dataFrame p false (u16OfBytes lo hi))
      else .error (.frameFlag f) := by
  have htail : (p ++ [f, lo, hi]).drop Config.chunkSize = [f, lo, hi] := List.drop_left' hp
  have hhead : (p ++ [f, lo, hi]).take Config.chunkSize = p := List.take_left' hp
  simp only [decodeFrame, htail, hhead]

/-- Another length is refused by name (R90). -/
theorem decodeFrame_of_length_ne {bytes : List Byte} (h : bytes.length ≠ 259) :
    decodeFrame bytes = .error (.frameLength bytes.length) := by
  unfold decodeFrame
  split
  · have := congrArg List.length ‹bytes.drop Config.chunkSize = _›
    simp only [List.length_drop, Config.chunkSize, List.length_cons, List.length_nil] at this
    omega
  · rfl

/-- A frame that is read has the layout of its own three fields. -/
theorem exists_fields_of_decodeFrame {bytes : List Byte} {i : Instr} (h : decodeFrame bytes = .ok i) :
    ∃ p f k, p.length = Config.chunkSize ∧ bytes = frameBytes p f k ∧ i = .dataFrame p f k := by
  by_cases hl : bytes.length = 259
  · obtain ⟨p, f, lo, hi, hp, rfl⟩ := exists_layout_of_length hl
    rw [decodeFrame_layout hp] at h
    split_ifs at h with ht hf <;> cases h
    · exact ⟨p, true, u16OfBytes lo hi, hp, by simp [frameBytes, ht], rfl⟩
    · exact ⟨p, false, u16OfBytes lo hi, hp, by simp [frameBytes, hf], rfl⟩
  · rw [decodeFrame_of_length_ne hl] at h
    cases h

/-- Settles O3: the length is decided first, then the flag byte, and 259 bytes are the layout of their own fields. -/
theorem frameDecodingIsExact : Obligations.FrameDecodingIsExact := by
  unfold Obligations.FrameDecodingIsExact
  refine ⟨fun bytes i h => ?exact, fun bytes => decodeFrame_of_length_ne, fun p f lo hi hp h0 h1 => ?flag⟩
  case exact =>
    obtain ⟨p, f, k, hp, rfl, rfl⟩ := exists_fields_of_decodeFrame h
    exact ⟨rfl, by rw [length_frameBytes, hp]⟩
  case flag => exact (decodeFrame_layout hp f lo hi).trans ((if_neg h1).trans (if_neg h0))

/-! Words of the opcode table, numbered as the table numbers them. -/

theorem decodeTableWord_codeByte (code : ControlCode) :
    decodeTableWord 8 (Config.codeByte code).toNat = some (codeInstr code) := by
  cases code <;> rfl

/-- Settles O5: the codes by their byte table, the commands and the refused byte by evaluation. -/
theorem tableWordsDecode : Obligations.TableWordsDecode := by
  unfold Obligations.TableWordsDecode
  have code := decodeTableWord_codeByte
  exact ⟨code .p, code .k, code .r, code .t, code .c, code .e, code .o, code .f, rfl, rfl, rfl, rfl, rfl⟩

end Sys2Proof.Proofs
end

section
/-! PROOFS of the family `30_encoding`: what the refused commands (R107, R108) and the bytes that are not awaited (R94,
R100) do. -/

namespace Sys2Proof.Proofs

open Sys2Proof Sys2Proof.Machine Sys2Proof.Safety

/-! Commands that do nothing, and commands that are refused (R107, R108). -/

/-- Settles O15: OP is the word's number modulo 16. -/
theorem nopChangesNothing : Obligations.NopChangesNothing := by
  unfold Obligations.NopChangesNothing
  exact ⟨fun w h => by simp [decode, decodeCmd, toNat_cmdOp, h], fun s => rfl⟩

/-- The commands of the reserved OPs (R106). -/
def reservedCommands : List Instr :=
  [.reserved6, .reserved7, .reserved11, .reserved12, .reserved13, .reserved14, .reserved15]

/-- OP 6, 7 and 11 to 15 are the reserved OPs (R106). -/
theorem decodeCmd_reserved {w : Word} (h : w.toNat % 16 ∈ [6, 7, 11, 12, 13, 14, 15]) :
    decodeCmd w ∈ reservedCommands := by
  simp only [List.mem_cons, List.not_mem_nil, or_false] at h
  rcases h with h | h | h | h | h | h | h <;> simp [decodeCmd, toNat_cmdOp, h, reservedCommands]

/-- A reserved command only sets CMD_ERR (R108). -/
theorem exec_reserved {i : Instr} (h : i ∈ reservedCommands) (s : State) : exec i s = .next (setCmdErr s) := by
  simp only [reservedCommands, List.mem_cons, List.not_mem_nil, or_false] at h
  rcases h with rfl | rfl | rfl | rfl | rfl | rfl | rfl <;> rfl

/-- A step whose acceptance condition is false only sets CMD_ERR, whatever its effect (R108). -/
theorem whenAccepted_refused {ok : Bool} (h : ok = false) (s : State) (effect : Host.Outcome State Fault Refusal) :
    whenAccepted ok s effect = .next (setCmdErr s) := by
  simp [whenAccepted, h]

/-- The commands accepted while BUSY = 0 only (R106). -/
theorem exec_whileBusy_refused {s : State} (hb : busy s = true) {b : Byte} {i : Instr}
    (h : i ∈ [Instr.crcInit, .crcByte b, .crcBlock, .encode, .check, .clear]) : exec i s = .next (setCmdErr s) := by
  have hnot : (!busy s) = false := by rw [hb]; rfl
  simp only [List.mem_cons, List.not_mem_nil, or_false] at h
  rcases h with rfl | rfl | rfl | rfl | rfl | rfl <;> exact whenAccepted_refused hnot s _

/-- Settles O25: a reserved OP decodes to a reserved command, and every other refusal is a false acceptance condition. -/
theorem refusedCommandsOnlySetCmdErr : Obligations.RefusedCommandsOnlySetCmdErr := by
  unfold Obligations.RefusedCommandsOnlySetCmdErr
  refine ⟨fun w h => ⟨decodeCmd w, decodeCmd_reserved h, rfl⟩, fun s => ⟨fun i hi => exec_reserved hi s,
    fun hb b i hi => exec_whileBusy_refused hb hi, fun hs => ?start, fun hb => ?cancel⟩⟩
  case start => exact whenAccepted_refused (decide_eq_false hs) s _
  case cancel => exact whenAccepted_refused hb s _

/-! Bytes that are not awaited (R94, R100). -/

/-- `F` is awaited in no PHASE (R94). -/
theorem codeF_not_awaited (ph : Phase) : Config.codeByte .f ∉ awaited ph := by
  cases ph <;> decide

/-- Outside WAIT_RESP a byte that is not awaited leaves no trace (R100). -/
theorem receive_discards {b : Byte} {s : State} (h : ¬ (s.state = .transferringChunks ∧ s.phase = .waitResp))
    (hb : b ∉ awaited s.phase) : receive b s = s := by
  unfold receive
  split
  case h_3 => exact absurd ⟨‹_›, ‹_›⟩ h
  case h_5 => rfl
  all_goals
    rename_i hph
    rw [hph] at hb
    exact if_neg (List.ne_of_not_mem_cons hb)

/-- In WAIT_RESP a byte that is not awaited goes by RESP_OTHER_POLICY (R173). -/
theorem receive_otherByte {b : Byte} {s : State} (hs : s.state = .transferringChunks) (hp : s.phase = .waitResp)
    (hb : b ∉ awaited s.phase) : receive b s = otherByte s := by
  obtain ⟨hc, he⟩ : b ≠ Config.codeByte .c ∧ b ≠ Config.codeByte .e := by simpa [hp, awaited] using hb
  simp only [receive, hs, hp, receiveInWaitResp, if_neg hc, if_neg he]

/-- Where no byte is read, none has an effect (R100). -/
theorem receive_of_not_reads {s : State} (h : reads s = false) (b : Byte) : receive b s = s := by
  unfold reads at h
  split at h
  case h_5 => simp only [receive]
  all_goals cases h

/-- All bytes that are not awaited have one effect (R100). -/
theorem receive_eq_of_not_awaited {b b' : Byte} {s : State} (hb : b ∉ awaited s.phase) (hb' : b' ∉ awaited s.phase) :
    receive b s = receive b' s := by
  by_cases h : s.state = .transferringChunks ∧ s.phase = .waitResp
  · obtain ⟨hs, hp⟩ := h
    rw [receive_otherByte hs hp hb, receive_otherByte hs hp hb']
  · rw [receive_discards h hb, receive_discards h hb']

/-- Settles O37: the turn consumes the byte, and `F` is as little awaited as that byte is. -/
theorem everyOtherByteActsLikeF : Obligations.EveryOtherByteActsLikeF := by
  unfold Obligations.EveryOtherByteActsLikeF
  intro s s0 b q hm hr hw hq hb
  rw [step_of_fsmMoves hm, turn_of_byte hr hw hq]
  exact congrArg _ (receive_eq_of_not_awaited (s := { s0 with rxq := q, answer := .ok }) hb (codeF_not_awaited _))

/-- In a PHASE that reads, a control code is the effect of its byte: `P` and `R` are sent elsewhere (R100). -/
theorem exec_codeInstr {s : State} (hr : reads s = true) (code : ControlCode) :
    exec (codeInstr code) s = .next (receive (Config.codeByte code) s) := by
  simpa only [runByte, decodeCtrl_codeByte] using runByte_eq hr (Config.codeByte code)

/-- Outside WAIT_RESP a code that is not awaited is discarded (R100). -/
theorem exec_discardedCode {s : State} {codes : List ControlCode} {i : Instr} (hr : reads s = true)
    (hp : s.phase ≠ .waitResp) (hc : ∀ code ∈ codes, Config.codeByte code ∉ awaited s.phase)
    (hi : i ∈ codes.map codeInstr) : exec i s = .next s := by
  obtain ⟨code, hmem, rfl⟩ := List.mem_map.1 hi
  rw [exec_codeInstr hr, receive_discards (fun ⟨_, hresp⟩ => hp hresp) (hc code hmem)]

/-- Settles O29: in the three waits the code's byte is not awaited; elsewhere no byte is read. -/
theorem otherCodesAreDiscarded : Obligations.OtherCodesAreDiscarded := by
  unfold Obligations.OtherCodesAreDiscarded
  intro s
  refine ⟨fun hs hp i hi => ?waitK, fun hs hp i hi => ?waitT, fun hs hp i hi => ?waitO, fun hr i hi => ?notRead⟩
  case waitK =>
    exact exec_discardedCode (codes := [.p, .r, .t, .c, .e, .o, .f]) (by simp [reads, hs, hp]) (by simp [hp])
      (by rw [hp]; decide) hi
  case waitT =>
    exact exec_discardedCode (codes := [.p, .k, .r, .c, .e, .o, .f]) (by simp [reads, hs, hp]) (by simp [hp])
      (by rw [hp]; decide) hi
  case waitO =>
    exact exec_discardedCode (codes := [.p, .k, .r, .t, .c, .e, .f]) (by simp [reads, hs, hp]) (by simp [hp])
      (by rw [hp]; decide) hi
  case notRead =>
    have hnext (b : Byte) : Host.Outcome.next (receive b s) = (.next s : Host.Outcome State Fault Refusal) :=
      congrArg _ (receive_of_not_reads hr b)
    simp only [List.mem_cons, List.not_mem_nil, or_false] at hi
    rcases hi with rfl | rfl | rfl | rfl | rfl | rfl <;> exact hnext _

end Sys2Proof.Proofs
end

section
/-! PROOFS of the family `30_encoding`: an image is the concatenation of its chunks (R99, R141). -/

namespace Sys2Proof.Proofs

open Sys2Proof Sys2Proof.Machine Sys2Proof.Safety

/-- The `k`-th 256 bytes of a byte sequence, fewer at its end. -/
def chunkOfBytes (bytes : List Byte) (k : Nat) : List Byte := (bytes.drop (chunkAddr k)).take Config.chunkSize

/-- The first `n` chunks are the first `256 * n` bytes. -/
theorem flatten_chunkOfBytes (bytes : List Byte) (n : Nat) :
    ((List.range n).map (chunkOfBytes bytes)).flatten = bytes.take (chunkAddr n) := by
  induction n with
  | zero => rfl
  | succ n ih =>
    have haddr : chunkAddr (n + 1) = chunkAddr n + Config.chunkSize := rfl
    rw [List.range_succ, List.map_append, List.flatten_append, ih, haddr, List.take_add]
    simp [chunkOfBytes]

/-- A block within a block that was read (R6). -/
theorem readBytes_within {m : Memory} {size len a n : Nat} {bytes : List Byte} (hm : m.wf size)
    (h : m.readBytes 0 len = some bytes) (hn : a + n ≤ len) : m.readBytes a n = some ((bytes.drop a).take n) := by
  obtain ⟨hl, hread⟩ := (Memory.readBytes_eq_some_iff hm 0 len bytes).1 h
  refine (Memory.readBytes_eq_some_iff hm a n _).2 ⟨?_, fun i hi => ?_⟩
  · rw [List.length_take, List.length_drop, hl]; omega
  · have := hread (a + i) (by omega)
    simpa [hi] using this

/-- Chunk `k` of an image begins within it (R99, R140). -/
theorem chunkAddr_lt {len k : Nat} (hk : k < chunkCount len) : chunkAddr k < len := by
  simp only [chunkCount, chunkAddr, Config.chunkSize] at *; omega

/-- The last chunk ends with the image or after it (R140). -/
theorem le_chunkAddr_chunkCount (len : Nat) : len ≤ chunkAddr (chunkCount len) := by
  simp only [chunkCount, chunkAddr, Config.chunkSize]; omega

theorem length_chunkOfBytes (bytes : List Byte) (k : Nat) :
    (chunkOfBytes bytes k).length = chunkLen bytes.length k := by
  simp [chunkOfBytes, chunkLen]

/-- The chunk the block reads is that chunk of the image's bytes (R141, R207). -/
theorem chunkOf_eq {img : Memory} {len k : Nat} {bytes : List Byte} (hm : img.wf Config.imageSize)
    (h : img.readBytes 0 len = some bytes) (hk : k < chunkCount len) : chunkOf img len k = some (chunkOfBytes bytes k) := by
  have hlen := Memory.length_of_readBytes h
  have hlt := chunkAddr_lt hk
  rw [chunkOf, readBytes_within hm h (by simp only [chunkLen]; omega), chunkOfBytes, Option.some_inj,
    List.take_eq_take_iff, List.length_drop, hlen, chunkLen]
  omega

/-- Settles O11: the chunks are the image's bytes cut every 256, and N(L) of them reach the end of the image. -/
theorem chunksConcatenateToImage : Obligations.ChunksConcatenateToImage := by
  unfold Obligations.ChunksConcatenateToImage
  intro img len bytes hm h
  have hlen : bytes.length = len := Memory.length_of_readBytes h
  refine ⟨(List.range (chunkCount len)).map (chunkOfBytes bytes), by simp, fun k hk => ?chunk, fun c hc => ?size, ?image⟩
  case chunk => simp [chunkOf_eq hm h hk, hk]
  case size =>
    obtain ⟨k, hk, rfl⟩ := List.mem_map.1 hc
    have := chunkAddr_lt (List.mem_range.1 hk)
    rw [length_chunkOfBytes, chunkLen, hlen]
    simp only [Config.chunkSize]; omega
  case image => rw [flatten_chunkOfBytes, List.take_of_length_le (hlen ▸ le_chunkAddr_chunkCount len)]

end Sys2Proof.Proofs
end

section
/-! PROOFS of the family `40_crc`, the checksum unit's functions (R120 to R122, R127, R128, R130). -/

namespace Sys2Proof.Proofs

open Sys2Proof Sys2Proof.Machine Sys2Proof.Safety

/-! Bit steps and the fold (R120 to R122, R127). -/

theorem crcBits_eq_iterate (n : Nat) (a : U16) : crcBits n a = crcBit^[n] a := by
  induction n generalizing a with
  | zero => rfl
  | succ n ih => rw [crcBits_succ, ih, Function.iterate_succ_apply]

/-- Settles O6: the bit steps are an iterate, and the test of bit 0 chooses between the two branches of a bit step. -/
theorem crcByteIsEightBitSteps : Obligations.CrcByteIsEightBitSteps := by
  unfold Obligations.CrcByteIsEightBitSteps
  exact ⟨fun a b => crcBits_eq_iterate 8 _, fun a => crcBit_of_odd, fun a => crcBit_of_even⟩

/-- R127, stated of `crcFold`. -/
theorem checksum_append (s t : List Byte) : checksum (s ++ t) = crcFold (checksum s) t := crcFold_append ..

/-- Settles O7: the checksum is by definition the fold from 0xFFFF, and a fold continues over a concatenation. -/
theorem checksumContinuesOverConcatenation : Obligations.ChecksumContinuesOverConcatenation := by
  unfold Obligations.ChecksumContinuesOverConcatenation
  exact ⟨checksum_nil, fun s => rfl, checksum_append⟩

/-! An accumulator whose low byte is 0 is only shifted by eight bit steps; the residue (R130) and the table form (R128)
follow from that. -/

/-- Bit steps that meet only bits that are 0 are a shift (R122). -/
theorem crcBits_of_low_zero {n : Nat} {a : U16} (h : ∀ i, i < n → a.getLsbD i = false) : crcBits n a = a >>> n := by
  induction n generalizing a with
  | zero => simp
  | succ n ih =>
    have hshift : ∀ i, i < n → (a >>> 1).getLsbD i = false := fun i hi => by
      rw [BitVec.getLsbD_ushiftRight]; exact h _ (by omega)
    rw [crcBits_succ, crcBit_of_even (h 0 (by omega)), ih hshift, ← BitVec.shiftRight_add, Nat.add_comm]

/-- A byte has no bit in the high byte of the accumulator it is XORed into (R121). -/
theorem xor_byte_ushiftRight (a : U16) (b : Byte) : (a ^^^ b.setWidth 16) >>> 8 = a >>> 8 :=
  BitVec.eq_of_getLsbD_eq fun i _ => by simp

/-- Taking in its own low byte clears it, so that the accumulator is only shifted. -/
theorem crcByte_lowByte (a : U16) : crcByte a (lowByte a) = a >>> 8 := by
  have hlow : ∀ i, i < 8 → (a ^^^ (lowByte a).setWidth 16).getLsbD i = false := fun i hi => by
    simp [lowByte, hi, show i < 16 by omega]
  rw [crcByte, crcBits_of_low_zero hlow, xor_byte_ushiftRight]

theorem lowByte_ushiftRight (a : U16) : lowByte (a >>> 8) = highByte a :=
  BitVec.eq_of_getLsbD_eq fun i hi => by simp [lowByte, highByte, hi]

/-- Settles O8: the accumulator takes in its low byte, which shifts the high byte down, and then takes in that one. -/
theorem checksumResidueIsZero : Obligations.ChecksumResidueIsZero := by
  unfold Obligations.ChecksumResidueIsZero
  intro s
  calc checksum (s ++ [lowByte (checksum s), highByte (checksum s)])
      = crcByte (crcByte (checksum s) (lowByte (checksum s))) (highByte (checksum s)) := checksum_append ..
    _ = crcByte (checksum s >>> 8) (lowByte (checksum s >>> 8)) := by rw [crcByte_lowByte, lowByte_ushiftRight]
    _ = checksum s >>> 8 >>> 8 := crcByte_lowByte _
    _ = 0 := (BitVec.shiftRight_add ..).symm.trans (BitVec.ushiftRight_eq_zero (by decide))

/-- Eight bit steps: the low byte by its table entry, the rest only shifted, as a bit step is linear over XOR (R128). -/
theorem crcBits_eight (x : U16) : crcBits 8 x = x >>> 8 ^^^ crcByte 0 (lowByte x) := by
  have hsplit : (x ^^^ (lowByte x).setWidth 16) ^^^ (0 ^^^ (lowByte x).setWidth 16) = x := by simp
  calc crcBits 8 x = crcByte x (lowByte x) ^^^ crcByte 0 (lowByte x) := by
        rw [crcByte, crcByte, ← crcBits_xor, hsplit]
    _ = x >>> 8 ^^^ crcByte 0 (lowByte x) := by rw [crcByte_lowByte]

/-- Settles O9: the bit steps of the XORed accumulator, in whose high byte the byte has no bit. -/
theorem crcByteTableIdentity : Obligations.CrcByteTableIdentity := by
  unfold Obligations.CrcByteTableIdentity
  intro a b
  rw [crcByte, crcBits_eight, xor_byte_ushiftRight]

end Sys2Proof.Proofs
end

section
/-! PROOFS of the family `40_crc`, the commands CRC_INIT, CRC_BYTE and CRC_BLOCK (R124 to R126). -/

namespace Sys2Proof.Proofs

open Sys2Proof Sys2Proof.Machine Sys2Proof.Safety

/-- A step whose acceptance condition is true has its effect (R106). -/
theorem whenAccepted_accepted {ok : Bool} (h : ok = true) (s : State) (effect : Host.Outcome State Fault Refusal) :
    whenAccepted ok s effect = effect := by
  simp [whenAccepted, h]

/-- ARG is the second byte of the word's number (R105). -/
theorem cmdArg_eq_ofNat (w : Word) : cmdArg w = BitVec.ofNat 8 (w.toNat / 256) :=
  BitVec.eq_of_toNat_eq (by simp [cmdArg, Nat.shiftRight_eq_div_pow])

/-- CRC_BLOCK with `CB[0..CB_LEN)` written (R126). -/
theorem execCrcBlock_of_some {s : State} {c : List Byte} (hb : busy s = false) (hc : chunkBuffer s = some c) :
    execCrcBlock s = .next { s with crcAcc := checksum c } := by
  rw [execCrcBlock, whenAccepted_accepted (by simp [hb]), hc]

/-- Settles O16: OP is the word's number modulo 16, and CRC_INIT is accepted while BUSY = 0 only. -/
theorem crcInitSetsAccumulator : Obligations.CrcInitSetsAccumulator := by
  unfold Obligations.CrcInitSetsAccumulator
  exact ⟨fun w h => by simp [decode, decodeCmd, toNat_cmdOp, h],
    fun s => ⟨fun hb => whenAccepted_accepted (by simp [hb]) s _, fun hb => exec_whileBusy_refused hb (b := 0) (by simp)⟩⟩

/-- Settles O17: CRC_BYTE's operand is ARG, and the command is accepted while BUSY = 0 only. -/
theorem crcByteContinuesAccumulator : Obligations.CrcByteContinuesAccumulator := by
  unfold Obligations.CrcByteContinuesAccumulator
  exact ⟨fun w h => by simp [decode, decodeCmd, toNat_cmdOp, h, cmdArg_eq_ofNat],
    fun s b => ⟨fun hb => whenAccepted_accepted (by simp [hb]) s _, fun hb => exec_whileBusy_refused hb (b := b) (by simp)⟩⟩

/-- Settles O18: the operand of CRC_BLOCK is `CB[0..CB_LEN)`, and the command is accepted while BUSY = 0 only. -/
theorem crcBlockChecksumsChunkBuffer : Obligations.CrcBlockChecksumsChunkBuffer := by
  unfold Obligations.CrcBlockChecksumsChunkBuffer
  exact ⟨fun w h => by simp [decode, decodeCmd, toNat_cmdOp, h],
    fun s c hc => ⟨fun hb => execCrcBlock_of_some hb hc, fun hb => exec_whileBusy_refused hb (b := 0) (by simp)⟩⟩

end Sys2Proof.Proofs
end

section
/-! PROOFS of the family `41_frame_codec`, the codec's functions (R140 to R145, R149, R151, R263). -/

namespace Sys2Proof.Proofs

open Sys2Proof Sys2Proof.Machine Sys2Proof.Safety

/-- Settles O10: N(L) is (L + 255) div 256. -/
theorem chunkCountIsCeiling : Obligations.ChunkCountIsCeiling := by
  unfold Obligations.ChunkCountIsCeiling
  intro len
  have hdef : chunkCount len = (len + 255) / 256 := rfl
  omega

/-! The layout of an encoded chunk (R142 to R145). -/

theorem getElem?_padChunk_of_lt_length {c : List Byte} {i : Nat} (hi : i < c.length) : (padChunk c)[i]? = (c)[i]? :=
  List.getElem?_append_left hi

theorem getElem?_padChunk_of_length_le {c : List Byte} {i : Nat} (hc : c.length ≤ i) (hi : i < 256) :
    (padChunk c)[i]? = some 0xFF := by
  rw [padChunk, List.getElem?_append_right hc, List.getElem?_replicate_of_lt (by rw [Config.chunkSize]; omega)]
  rfl

theorem take_encodeFrame {c : List Byte} (hc : c.length ≤ 256) : (encodeFrame c).take 256 = padChunk c :=
  List.take_left' (length_padChunk hc)

theorem getElem?_encodeFrame_payload {c : List Byte} (hc : c.length ≤ 256) {i : Nat} (hi : i < 256) :
    (encodeFrame c)[i]? = (padChunk c)[i]? :=
  List.getElem?_append_left (by rwa [length_padChunk hc])

/-- What follows the payload of a frame (R95). -/
theorem getElem?_after_payload {p : List Byte} (hp : p.length = 256) (trailer : List Byte) (j : Nat) :
    (p ++ trailer)[256 + j]? = trailer[j]? := by
  rw [List.getElem?_append_right (by omega), hp, Nat.add_sub_cancel_left]

/-- R143 and R96, written as the byte that is sent. -/
theorem flagByte_flagOf (c : List Byte) : flagByte (flagOf c) = if c.length = 256 then 0x01 else 0x00 := by
  simp [flagByte, flagOf]

/-- Settles O12: the frame is the padded chunk and the three bytes of its trailer, and each clause reads one of the two. -/
theorem encodedFrameLayout : Obligations.EncodedFrameLayout := by
  unfold Obligations.EncodedFrameLayout
  intro c hc
  have trailer := getElem?_after_payload (length_padChunk hc)
    [flagByte (flagOf c), lowByte (checksum (padChunk c)), highByte (checksum (padChunk c))]
  rw [take_encodeFrame hc]
  refine ⟨length_encodeFrame hc, fun i hi => ?chunk, fun i hci hi => ?padding, ?flag, trailer 1, trailer 2, rfl⟩
  case chunk => rw [getElem?_encodeFrame_payload hc (by omega), getElem?_padChunk_of_lt_length hi]
  case padding => rw [getElem?_encodeFrame_payload hc hi, getElem?_padChunk_of_length_le hci hi]
  case flag => rw [← flagByte_flagOf]; exact trailer 0

/-! What a check answers (R149). -/

/-- The check of 256 payload bytes and three bytes more, field by field (R149). -/
theorem checkFrame_layout {p : List Byte} (hp : p.length = 256) (f lo hi : Byte) :
    checkFrame (p ++ [f, lo, hi]) =
      { payload := p, flag := f, crcRx := u16OfBytes lo hi, crcCalc := checksum p
        ok := decide (checksum p = u16OfBytes lo hi), flagLegal := decide (f = 0x00 ∨ f = 0x01) } := by
  have hhead : (p ++ [f, lo, hi]).take Config.chunkSize = p := List.take_left' hp
  have after := getElem?_after_payload hp [f, lo, hi]
  have hflag : (p ++ [f, lo, hi])[256]? = some f := after 0
  have hlo : (p ++ [f, lo, hi])[257]? = some lo := after 1
  have hhi : (p ++ [f, lo, hi])[258]? = some hi := after 2
  simp [checkFrame, hhead, hflag, hlo, hhi, flagByte, Bool.beq_eq_decide_eq]

/-- A payload followed by any flag byte and by its own checksum checks, as the checksum is over the payload alone
(R149, R263). -/
theorem checkFrame_ownChecksum {p : List Byte} (hp : p.length = 256) (f : Byte) :
    checkFrame (p ++ [f, lowByte (checksum p), highByte (checksum p)]) =
      { payload := p, flag := f, crcRx := checksum p, crcCalc := checksum p
        ok := true, flagLegal := decide (f = 0x00 ∨ f = 0x01) } := by
  simp [checkFrame_layout hp]

/-- Replacing the flag byte leaves the payload and the checksum bytes (R95). -/
theorem set_flag_encodeFrame {c : List Byte} (hc : c.length ≤ 256) (f : Byte) :
    (encodeFrame c).set 256 f =
      padChunk c ++ [f, lowByte (checksum (padChunk c)), highByte (checksum (padChunk c))] := by
  rw [encodeFrame, frameBytes, List.set_append_right _ _ (length_padChunk hc).le, length_padChunk hc]
  rfl

/-- The flag byte of a flag is one of the two legal bytes (R96). -/
theorem flagByte_legal (flag : Bool) : flagByte flag = 0x00 ∨ flagByte flag = 0x01 := by
  cases flag <;> decide

/-- Settles O13: an encoded chunk is its padded payload with a legal flag byte and its own checksum. -/
theorem checkOfEncodeSucceeds : Obligations.CheckOfEncodeSucceeds := by
  unfold Obligations.CheckOfEncodeSucceeds
  intro c hc
  rw [encodeFrame, frameBytes, checkFrame_ownChecksum (length_padChunk hc)]
  exact ⟨rfl, decide_eq_true (flagByte_legal _), rfl, rfl, rfl, rfl⟩

/-- Settles O14: the frame with the replaced flag byte still carries its payload's own checksum. -/
theorem flagByteIsNotProtected : Obligations.FlagByteIsNotProtected := by
  unfold Obligations.FlagByteIsNotProtected
  intro c f hc
  rw [set_flag_encodeFrame hc, checkFrame_ownChecksum (length_padChunk hc)]
  exact ⟨rfl, rfl, decide_eq_true_iff⟩

end Sys2Proof.Proofs
end

section
/-! PROOFS of the family `41_frame_codec`, the commands ENCODE and CHECK (R148, R150). -/

namespace Sys2Proof.Proofs

open Sys2Proof Sys2Proof.Machine Sys2Proof.Safety

/-- ENCODE with `CB[0..CB_LEN)` written (R148). -/
theorem execEncode_of_some {s : State} {c : List Byte} (hb : busy s = false) (hc : chunkBuffer s = some c) :
    execEncode s = .next (buildFrame c s) := by
  rw [execEncode, whenAccepted_accepted (by simp [hb]), hc]

/-- CHECK with `FB[0..259)` written (R150). -/
theorem execCheck_of_some {s : State} {f : List Byte} (hb : busy s = false) (hf : frameBuffer s = some f) :
    execCheck s = .next (recordCheck (checkFrame f) s) := by
  rw [execCheck, whenAccepted_accepted (by simp [hb]), hf]

/-- FB holds the frame that was built (R148). -/
theorem readBytes_fb_buildFrame {c : List Byte} (hc : c.length ≤ 256) (s : State) :
    (buildFrame c s).fb.readBytes 0 259 = some (encodeFrame c) := by
  rw [buildFrame_fb, ← length_encodeFrame hc]
  exact Memory.readBytes_writeBytes_zero s.fb _

/-- A frame ends at byte 258 of FB (R145). -/
theorem read_fb_buildFrame_after {c : List Byte} (hc : c.length ≤ 256) (s : State) {a : Nat} (ha : 259 ≤ a) :
    (buildFrame c s).fb.read a = s.fb.read a := by
  rw [buildFrame_fb, Memory.read_writeBytes, length_encodeFrame hc, if_neg (by omega)]

/-- Settles O19: building the frame of `CB[0..CB_LEN)` writes FB[0..259) and CRC_ACC, and ENCODE is accepted while
BUSY = 0 only. -/
theorem encodeBuildsFrame : Obligations.EncodeBuildsFrame := by
  unfold Obligations.EncodeBuildsFrame
  refine ⟨fun w h => by simp [decode, decodeCmd, toNat_cmdOp, h], fun s c hb hlen hcb => ?built,
    fun s hb => exec_whileBusy_refused hb (b := 0) (by simp)⟩
  case built =>
    have hc : c.length ≤ 256 := length_chunkBuffer hcb ▸ hlen
    exact ⟨buildFrame c s, execEncode_of_some hb hcb, readBytes_fb_buildFrame hc s, rfl,
      fun a => read_fb_buildFrame_after hc s, fun a => rfl, fun a => rfl, rfl⟩

/-- Settles O20: CHECK records the check of the frame's layout, and is accepted while BUSY = 0 only. -/
theorem checkRecordsResult : Obligations.CheckRecordsResult := by
  unfold Obligations.CheckRecordsResult
  refine ⟨fun w h => by simp [decode, decodeCmd, toNat_cmdOp, h], fun s p f lo hi hb hp hfb => ?recorded,
    fun s hb => exec_whileBusy_refused hb (b := 0) (by simp)⟩
  case recorded =>
    refine (execCheck_of_some hb hfb).trans ?_
    rw [checkFrame_layout hp, recordCheck]

end Sys2Proof.Proofs
end

section
/-! PROOFS of the family `42_transfer_fsm`, the commands and the transitions of the state machine one by one (R161 to R181,
R230). -/

namespace Sys2Proof.Proofs

open Sys2Proof Sys2Proof.Machine Sys2Proof.Safety

/-! START, CLEAR and CANCEL (R161, R180, R181). -/

/-- Settles O22: START is accepted in Idle only, and moves the control position alone. -/
theorem startFromIdle : Obligations.StartFromIdle := by
  unfold Obligations.StartFromIdle
  exact ⟨fun w h => by simp [decode, decodeCmd, toNat_cmdOp, h],
    fun s => ⟨fun hs => ⟨whenAccepted_accepted (decide_eq_true hs) s _, rfl⟩,
      fun hs => whenAccepted_refused (decide_eq_false hs) s _⟩⟩

/-- CLEAR while BUSY = 0 (R180). -/
theorem execClear_of_not_busy {s : State} (hb : busy s = false) : execClear s = .next (returnToIdle s) :=
  whenAccepted_accepted (by simp [hb]) s _

/-- Settles O23: CLEAR is the return to Idle, accepted while BUSY = 0 only. -/
theorem clearReturnsToIdle : Obligations.ClearReturnsToIdle := by
  unfold Obligations.ClearReturnsToIdle
  exact ⟨fun w h => by simp [decode, decodeCmd, toNat_cmdOp, h],
    fun s => ⟨execClear_of_not_busy, fun hb => exec_whileBusy_refused hb (b := 0) (by simp)⟩⟩

/-- Settles O24: CANCEL is the abort entry, accepted while BUSY = 1 only. -/
theorem cancelAborts : Obligations.CancelAborts := by
  unfold Obligations.CancelAborts
  exact ⟨fun w h => by simp [decode, decodeCmd, toNat_cmdOp, h],
    fun s => ⟨fun hb => whenAccepted_accepted hb s _, fun hb => whenAccepted_refused hb s _⟩⟩

/-! The codes that are sent (R162, R165). -/

/-- A move within a STATE changes PHASE alone. -/
theorem moveTo_of_state {s : State} {st : FsmState} (hs : s.state = st) (ph : Phase) :
    moveTo st ph s = { s with phase := ph } := by
  subst hs; rfl

/-- CTRL_P where it is sent (R162). -/
theorem execCtrlP_sends {s : State} (hs : s.state = .awaitingLinkReady) (hp : s.phase = .sendP) :
    execCtrlP s = .next (sendP s) := by
  simp only [execCtrlP, hs, hp]

/-- CTRL_R where it is sent (R165). -/
theorem execCtrlR_sends {s : State} (hs : s.state = .sendingHandshake) (hp : s.phase = .sendR) :
    execCtrlR s = .next (sendR s) := by
  simp only [execCtrlR, hs, hp]

/-- A transition that sends one code aborts with nothing sent when the access fails (R178, R201). -/
theorem sendThen_code_of_error {s : State} {n : Nat} (h : s.answer = .error n) (b : Byte) (k : State → State) :
    sendThen [b] k s = raise .linkUnavailable { s with answer := .ok } := by
  rw [sendThen_of_error h, sentBeforeFailure_singleton, List.append_nil]

/-- Settles O26: `P` is sent, and what follows the send moves within AwaitingLinkReady. -/
theorem sendPThenWaitForK : Obligations.SendPThenWaitForK := by
  unfold Obligations.SendPThenWaitForK
  intro s hs hp
  refine ⟨fun hw => (execCtrlP_sends hs hp).trans ?works, fun n hn => (execCtrlP_sends hs hp).trans ?fails⟩
  case works =>
    exact congrArg _ ((sendThen_of_works hw _ _).trans
      (moveTo_of_state (s := { s with txh := s.txh ++ [Config.codeByte .p], answer := .ok }) hs .waitK))
  case fails => rw [sendP, sendThen_code_of_error hn]; rfl

/-- The session that is created, with the PHASE in which its first wait is (R165, R167). -/
theorem createSession_eq (s : State) : createSession s = { s with
    state := .transferringChunks, phase := if s.imgLen = 0 then .waitO else .waitT
    chunkIdx := 0, retryCnt := 0, outcome := .inProgress } := by
  have hempty : chunkCount s.imgLen.toNat = 0 ↔ s.imgLen = 0 := by
    rw [chunkCount_eq_zero, BitVec.toNat_eq]; rfl
  by_cases h : s.imgLen = 0
  · rw [createSession_empty (hempty.2 h), if_pos h]
  · rw [createSession_chunks (mt hempty.1 h), if_neg h]

/-- Settles O27: `R` is sent, and the session is created only after a send that works. -/
theorem sendRCreatesSession : Obligations.SendRCreatesSession := by
  unfold Obligations.SendRCreatesSession
  intro s hs hp
  refine ⟨fun hw => (execCtrlR_sends hs hp).trans ?works, fun n hn => (execCtrlR_sends hs hp).trans ?fails⟩
  case works => rw [sendR, sendThen_of_works hw, createSession_eq]; rfl
  case fails => rw [sendR, sendThen_code_of_error hn]; rfl

/-! The codes that are received (R163, R169 to R175). -/

/-- Settles O28: each wait's code passes its test, and the move the test guards stays within STATE where it says so. -/
theorem awaitedCodeMovesOn : Obligations.AwaitedCodeMovesOn := by
  unfold Obligations.AwaitedCodeMovesOn
  refine fun s => ⟨fun hs hp => congrArg Host.Outcome.next ?waitK, fun hs hp => congrArg Host.Outcome.next ?waitT,
    fun hs hp => congrArg Host.Outcome.next ?waitO⟩
  case waitK => simp only [receive, hs, hp, receiveInWaitK, if_true, moveTo]
  case waitT => simp only [receive, hs, hp, receiveInWaitT, if_true, moveTo_of_state hs]
  case waitO => simp only [receive, hs, hp, receiveInWaitO, if_true, moveTo]

section
variable {s : State} (hs : s.state = .transferringChunks) (hp : s.phase = .waitResp)
include hs hp

/-- `C` in WAIT_RESP is Accepted (R170). -/
theorem receive_codeC : receive (Config.codeByte .c) s = accepted s := by
  simp only [receive, hs, hp, receiveInWaitResp, if_true]

/-- `E` in WAIT_RESP is Rejected (R170). -/
theorem receive_codeE : receive (Config.codeByte .e) s = rejected s := by
  have hne : Config.codeByte .e ≠ Config.codeByte .c := by decide
  simp only [receive, hs, hp, receiveInWaitResp, if_neg hne, if_true]

end

section
variable {s : State} (hs : s.state = .transferringChunks)
include hs

/-- Accepted, with the PHASE in which the next wait is (R171). -/
theorem accepted_eq : accepted s = { s with
    chunkIdx := s.chunkIdx + 1, retryCnt := 0
    phase := if (s.chunkIdx + 1).toNat = chunkCount s.imgLen.toNat then .waitO else .waitT } := by
  by_cases h : (s.chunkIdx + 1).toNat = chunkCount s.imgLen.toNat
  · rw [accepted_last h, if_pos h, ← hs]
  · rw [accepted_next h, if_neg h, ← hs]

/-- The pause begins within the STATE (R241). -/
theorem enterPause_eq : enterPause s = { s with phase := .retryDelay, delayT := 0 } := by
  rw [enterPause, moveTo_of_state hs]

/-- Rejected with a retry left: the count and the pause, within the STATE (R172, R241). -/
theorem rejected_of_lt (h : s.retryCnt + 1 < s.cfgMaxRetries) :
    rejected s = { s with retryCnt := s.retryCnt + 1, phase := .retryDelay, delayT := 0 } :=
  (rejected_retry (BitVec.not_le.2 h)).trans (enterPause_eq (s := { s with retryCnt := s.retryCnt + 1 }) hs)

end

/-- Settles O30: `C` is Accepted, with the next wait chosen by the new CHUNK_IDX. -/
theorem acceptedAdvancesChunk : Obligations.AcceptedAdvancesChunk := by
  unfold Obligations.AcceptedAdvancesChunk
  intro s hs hp
  exact congrArg Host.Outcome.next ((receive_codeC hs hp).trans (accepted_eq hs))

/-- Settles O31: `E` is Rejected, and the incremented count against CFG_MAX_RETRIES says which of its two ends. -/
theorem rejectedCountsThenAborts : Obligations.RejectedCountsThenAborts := by
  unfold Obligations.RejectedCountsThenAborts
  exact fun s hs hp =>
    ⟨fun h => congrArg Host.Outcome.next ((receive_codeE hs hp).trans (rejected_last h)),
      fun h => congrArg Host.Outcome.next ((receive_codeE hs hp).trans (rejected_of_lt hs h))⟩

/-- In WAIT_RESP the six codes that are neither `C` nor `E` are one answer (R173). -/
theorem exec_otherAnswer {s : State} {i : Instr} (hs : s.state = .transferringChunks) (hp : s.phase = .waitResp)
    (hi : i ∈ [Instr.ctrlP, .ctrlK, .ctrlR, .ctrlT, .ctrlO, .ctrlF]) : exec i s = .next (otherByte s) := by
  have hother : ∀ code ∈ [ControlCode.p, .k, .r, .t, .o, .f], Config.codeByte code ∉ awaited s.phase := by
    rw [hp]; decide
  have hcodes : i ∈ [ControlCode.p, .k, .r, .t, .o, .f].map codeInstr := hi
  obtain ⟨code, hmem, rfl⟩ := List.mem_map.1 hcodes
  rw [exec_codeInstr (by simp [reads, hs, hp]), receive_otherByte hs hp (hother code hmem)]

/-- Settles O32: the answer goes by the policy, a rejection under REJECT being that of `E`. -/
theorem otherAnswerFollowsPolicy : Obligations.OtherAnswerFollowsPolicy := by
  unfold Obligations.OtherAnswerFollowsPolicy
  intro s hs hp i hi
  rw [exec_otherAnswer hs hp hi]
  refine ⟨fun h hmax => congrArg Host.Outcome.next ?used, fun h hlt => congrArg Host.Outcome.next ?retry,
    fun h => congrArg Host.Outcome.next ?discard, fun h => congrArg Host.Outcome.next ?fatal⟩ <;>
    simp only [otherByte, h]
  case used => exact rejected_last (s := setProtoViol s) hmax
  case retry => exact rejected_of_lt (s := setProtoViol s) hs hlt
  case fatal => rfl

/-! The waits and the pause (R174, R178, R179, R183). -/

/-- Settles O38: the turn of a PHASE that reads is one LinkRead, and these are its answers without a byte. -/
theorem failedWaitsAbort : Obligations.FailedWaitsAbort := by
  unfold Obligations.FailedWaitsAbort
  intro s s0 hm hr
  rw [step_of_fsmMoves hm, turn_of_reads hr, waitTurn]
  refine ⟨fun n hn => ?fails, fun ha hq ht => ?timesOut, fun ha hq ht => ?blocked⟩
  case fails => rw [linkRead_of_error hn]; rfl
  case timesOut => rw [linkRead_of_timeOut ha hq ht]; rfl
  case blocked => rw [linkRead_of_empty (.inr ⟨ha, ht⟩) hq]

/-- The turn of a wait with nothing to read and nothing to fail changes nothing (R160, R183). -/
theorem turn_of_blocked {s : State} (hr : reads s = true) (hq : s.rxq = []) (ha : s.answer = .ok) :
    turn s = .next s := by
  rw [turn_of_reads hr, waitTurn, linkRead_of_empty (.inl ha) hq]

/-- A run goes on from the state its first step answers. -/
theorem run_succ_of_step {M : Host.Core} {s t : M.State} (h : M.step s = .next t) (n : Nat) :
    M.run (n + 1) s = M.run n t := by
  rw [Host.Core.run, h]

/-- A state that steps to itself is where every run from it ends. -/
theorem run_of_step_self {s : State} (h : step s = .next s) (n : Nat) :
    Host.Core.run Sys2Proof.core n s = .next s := by
  induction n with
  | zero => rfl
  | succ n ih => exact (run_succ_of_step (M := Sys2Proof.core) h n).trans ih

/-- Settles O39: the blocked wait is the FSM's own step and answers the same state. -/
theorem blockedWaitChangesNothing : Obligations.BlockedWaitChangesNothing := by
  unfold Obligations.BlockedWaitChangesNothing
  intro s n hin hr hq ha
  exact run_of_step_self ((step_of_fsmMoves (.inl ⟨hin, rfl⟩)).trans (turn_of_blocked hr hq ha)) n

/-- Settles O40: the turn in RETRY_DELAY ends the pause, with the larger of the time elapsed and the time configured. -/
theorem pauseEndsInWaitT : Obligations.PauseEndsInWaitT := by
  unfold Obligations.PauseEndsInWaitT
  intro s s0 hm hs hp
  refine ⟨endPause s0, ?turn, rfl, Nat.le_max_right _ _, ?kept⟩
  case turn => simp only [step_of_fsmMoves hm, turn, hs, hp]
  case kept => rw [endPause, moveTo_of_state hs]

/-! DATA_FRAME (R168, R178). -/

/-- DATA_FRAME in SEND_FRAME of a chunk whose bytes are placed (R168). -/
theorem execDataFrame_sends {s : State} {c : List Byte} (hs : s.state = .transferringChunks) (hp : s.phase = .sendFrame)
    (hk : s.chunkIdx.toNat < imageChunks s) (hc : currentChunk s = some c) :
    execDataFrame s = .next (sendFrame c s) := by
  simp only [execDataFrame, hs, hp, if_pos hk, hc]

/-- What a state whose buffers are loaded with a chunk holds in CB, FB and CRC_ACC, and that no other byte of them and no
byte of the image changed (R168, R231). -/
structure HoldsChunk (c : List Byte) (s t : State) : Prop where
  cb : t.cb.readBytes 0 c.length = some c
  cbLen : t.cbLen.toNat = c.length
  fb : t.fb.readBytes 0 259 = some (encodeFrame c)
  crcAcc : t.crcAcc = checksum (padChunk c)
  cbAfter : ∀ a, c.length ≤ a → t.cb.read a = s.cb.read a
  fbAfter : ∀ a, 259 ≤ a → t.fb.read a = s.fb.read a
  img : ∀ a, t.img.read a = s.img.read a

/-- Loading a chunk writes CB and then builds the chunk's frame. -/
theorem holdsChunk_loadChunk {c : List Byte} (hc : c.length ≤ 256) (s : State) : HoldsChunk c s (loadChunk c s) where
  cb := Memory.readBytes_writeBytes_zero s.cb c
  cbLen := cbLen_loadChunk hc
  fb := readBytes_fb_buildFrame hc _
  crcAcc := rfl
  cbAfter a ha := by rw [loadChunk_cb, Memory.read_writeBytes, if_neg (by omega)]
  fbAfter a ha := read_fb_buildFrame_after hc _ ha
  img _ := rfl

/-- Settles O33: the buffers are loaded, the whole frame goes out, and the wait for the answer is in the same STATE. -/
theorem dataFrameBuildsAndSends : Obligations.DataFrameBuildsAndSends := by
  unfold Obligations.DataFrameBuildsAndSends
  intro s c p f k hs hp hk hc hw
  obtain ⟨hcb, hlen, hfb, hcrc, hcb', hfb', himg⟩ := holdsChunk_loadChunk (length_currentChunk hc).2 s
  refine ⟨_, execDataFrame_sends hs hp hk hc, ?_⟩
  rw [sendFrame, sendThen_of_works (s := loadChunk c s) hw, moveTo_of_state (by exact hs)]
  exact ⟨hcb, hlen, hfb, hcrc, rfl, rfl, rfl, hcb', hfb', himg, rfl⟩

/-- Settles O34: the buffers are loaded before the send breaks off and the session aborts. -/
theorem failedFrameSendAborts : Obligations.FailedFrameSendAborts := by
  unfold Obligations.FailedFrameSendAborts
  intro s c p f k n hs hp hk hc hn
  have hle : c.length ≤ 256 := (length_currentChunk hc).2
  obtain ⟨hcb, hlen, hfb, hcrc, hcb', hfb', himg⟩ := holdsChunk_loadChunk hle s
  have hsent : sentBeforeFailure n (encodeFrame c) = (encodeFrame c).take (min n 258) := by
    rw [sentBeforeFailure, length_encodeFrame hle]
  refine ⟨_, execDataFrame_sends hs hp hk hc, ?_⟩
  rw [sendFrame, sendThen_of_error (s := loadChunk c s) hn, hsent]
  exact ⟨hcb, hlen, hfb, hcrc, rfl, rfl, rfl, rfl, rfl, rfl, rfl, hcb', hfb', himg, rfl⟩

end Sys2Proof.Proofs
end

section
/-! PROOFS of the family `42_transfer_fsm`, the session along its steps: how it ends (R175 to R177, R234) and what it has sent
when it is complete (R182). -/

namespace Sys2Proof.Proofs

open Sys2Proof Sys2Proof.Machine Sys2Proof.Safety

/-! What a step can do to the session. -/

/-- The session's position, its counters and what it has sent. -/
def sessionView (s : State) : FsmState × Phase × BitVec 32 × BitVec 8 × List Byte :=
  (s.state, s.phase, s.chunkIdx, s.retryCnt, s.txh)

theorem state_of_sessionView {s t : State} (h : sessionView t = sessionView s) : t.state = s.state :=
  congrArg Prod.fst h

theorem phase_of_sessionView {s t : State} (h : sessionView t = sessionView s) : t.phase = s.phase :=
  congrArg (fun v => v.2.1) h

theorem sessionView_of_fsmMoves {s s0 : State} (h : FsmMoves s s0) : sessionView s0 = sessionView s := by
  rcases h with ⟨-, rfl⟩ | ⟨rest, -, rfl⟩ <;> rfl

/-- The three commands that touch the session, where they are accepted (R161, R180, R181). -/
inductive SessionCommand (s : State) : Instr → State → Prop where
  | start (hs : s.state = .idle) : SessionCommand s .start (moveTo .awaitingLinkReady .sendP s)
  | clear (hb : busy s = false) : SessionCommand s .clear (returnToIdle s)
  | cancel (hb : busy s = true) : SessionCommand s .cancel (raise .cancelled s)

/-- Every other command, and every refused one, leaves the session alone (R106, R108). -/
theorem sessionView_or_sessionCommand {i : Instr} {s t : State} (hi : i.format = .cmd32) (h : exec i s = .next t) :
    sessionView t = sessionView s ∨ SessionCommand s i t := by
  cases i with
  | ctrlP | ctrlK | ctrlR | ctrlT | ctrlC | ctrlE | ctrlO | ctrlF | dataFrame => cases hi
  | nop | reserved6 | reserved7 | reserved11 | reserved12 | reserved13 | reserved14 | reserved15 =>
    cases h; exact .inl rfl
  | crcInit | crcByte =>
    rcases whenAccepted_cases h with ⟨-, h⟩ | ⟨-, rfl⟩
    · cases h; exact .inl rfl
    · exact .inl rfl
  | crcBlock | encode | check =>
    rcases whenAccepted_cases h with ⟨-, h⟩ | ⟨-, rfl⟩
    · split at h <;> cases h
      exact .inl rfl
    · exact .inl rfl
  | start =>
    rcases whenAccepted_cases h with ⟨hs, h⟩ | ⟨-, rfl⟩
    · cases h; exact .inr (.start (of_decide_eq_true hs))
    · exact .inl rfl
  | clear =>
    rcases whenAccepted_cases h with ⟨hb, h⟩ | ⟨-, rfl⟩
    · cases h; exact .inr (.clear (by simpa using hb))
    · exact .inl rfl
  | cancel =>
    rcases whenAccepted_cases h with ⟨hb, h⟩ | ⟨-, rfl⟩
    · cases h; exact .inr (.cancel hb)
    · exact .inl rfl

/-- What a step can do to the session: a turn of the FSM, nothing, one of the three commands, or a reset. -/
inductive SessionStep (s t : State) : Prop where
  | turn (s0 : State) (hm : FsmMoves s s0) (ht : TurnCase s0 t)
  | kept (hv : sessionView t = sessionView s)
  | command (w : Word) (rest : List Input) (i : Instr) (hin : s.inputs = .regWrite 0 w :: rest) (hi : decodeCmd w = i)
      (hc : SessionCommand { s with inputs := rest } i t)
  | reset (cut : Nat) (rest : List Input) (hin : s.inputs = .reset cut :: rest)
      (ht : t = resetBlock cut { s with inputs := rest })

theorem sessionStep_of_step {s t : State} (h : step s = .next t) : SessionStep s t := by
  rcases step_cases h with ⟨s0, hm, ht⟩ | ⟨i, rest, hin, -, hi⟩
  · exact .turn s0 hm ht
  · cases hi with
    | command w =>
      rw [step_of_commandWrite hin] at h
      rcases sessionView_or_sessionCommand (format_decodeCmd w) h with hv | hc
      · exact .kept hv
      · exact .command w rest _ hin rfl hc
    | reset cut => exact .reset cut rest hin rfl
    | store n v _ hc => exact .kept (by cases hc <;> rfl)
    | bufWrite w => exact .kept (by cases w <;> rfl)
    | regRead | bufRefused | bufRead | bufReadOutside | rx | errLink | timeOut | elapse | imgPlace => exact .kept rfl

/-! Complete and Aborted (R176, R177, R234). -/

/-- A PHASE that reads is one of a busy block (R42, R100). -/
theorem busy_of_reads {s : State} (h : reads s = true) : busy s = true := by
  unfold reads at h
  split at h
  case h_5 => cases h
  all_goals simp only [busy, *]

/-- Where BUSY = 0 the FSM has no step (R160, R177). -/
theorem turnCase_of_not_busy {s t : State} (hb : busy s = false) (h : TurnCase s t) : t = s := by
  have hread : reads s ≠ true := fun hr => by simp [busy_of_reads hr] at hb
  cases h with
  | noStep => rfl
  | sendsP hs | sendsR hs | sendsFrame _ hs | endsPause hs => simp [busy, hs] at hb
  | consumes _ _ hr | readFails _ hr | timesOut hr => exact absurd hr hread

/-- Settles O54: what may be sent and what may leave RXQ says the block must be busy for it (O51, O52); a turn is no step,
START and CANCEL are refused, and CLEAR and reset go to Idle. -/
theorem terminalStatesDoNoLinkAccess : Obligations.TerminalStatesDoNoLinkAccess := by
  unfold Obligations.TerminalStatesDoNoLinkAccess
  intro s t _ hs h
  have hb : busy s = false := by rcases hs with hs | hs <;> simp [busy, hs]
  have hb0 : ∀ {s0}, FsmMoves s s0 → busy s0 = false := fun hm => by
    rcases hm with ⟨-, rfl⟩ | ⟨rest, -, rfl⟩ <;> exact hb
  refine ⟨?sent, ?received, ?position⟩
  case sent =>
    obtain ⟨out, hout, rfl | ⟨hst, -⟩ | ⟨hst, -⟩ | ⟨hst, -⟩⟩ := onlySendPhasesTransmit s t h
    · rw [hout, List.append_nil]
    all_goals simp [busy, hst] at hb
  case received =>
    rcases receiveQueueIsNeverFlushed.2.2 s t h with hq | hq | ⟨s0, b, hm, hr, -⟩
    · exact .inl hq
    · exact .inr hq
    · exact absurd (busy_of_reads hr) (by simp [hb0 hm])
  case position =>
    cases sessionStep_of_step h with
    | turn s0 hm ht =>
      have hv := sessionView_of_fsmMoves hm
      obtain rfl := turnCase_of_not_busy (hb0 hm) ht
      exact .inl ⟨state_of_sessionView hv, phase_of_sessionView hv⟩
    | kept hv => exact .inl ⟨state_of_sessionView hv, phase_of_sessionView hv⟩
    | command w rest i hin hi hc =>
      cases hc with
      | start hidle => rcases hs with hs | hs <;> simp [hs] at hidle
      | clear => exact .inr (.inl ⟨w, rest, hin, congrArg Except.ok hi, rfl⟩)
      | cancel hbusy => exact absurd hbusy (by simpa [busy] using hb)
    | reset cut rest hin ht => exact .inr (.inr ⟨cut, rest, hin, ht ▸ rfl⟩)

theorem state_createSession (s : State) : (createSession s).state = .transferringChunks := by rw [createSession_eq]

theorem state_accepted (s : State) : (accepted s).state = .transferringChunks := by
  unfold accepted; dsimp only; split <;> rfl

theorem state_rejected_ne_complete (s : State) : (rejected s).state ≠ .complete := by
  unfold rejected; dsimp only; split <;> nofun

theorem state_otherByte_ne_complete {s : State} (hs : s.state ≠ .complete) : (otherByte s).state ≠ .complete := by
  unfold otherByte
  split
  · exact state_rejected_ne_complete _
  · exact hs
  · nofun

/-- Of the bytes a session consumes, `O` in WAIT_O alone completes it (R175). -/
theorem received_complete {s t : State} {b : Byte} (h : Received b s t) (hs : s.state ≠ .complete)
    (ht : t.state = .complete) : s.state = .transferringChunks ∧ s.phase = .waitO ∧ b = Config.codeByte .o ∧
      t = { moveTo .complete .none s with outcome := .complete } := by
  cases h with
  | writeComplete hs hp hb => exact ⟨hs, hp, hb, rfl⟩
  | linkReady | targetReady => cases ht
  | acceptedChunk => rw [state_accepted] at ht; cases ht
  | rejectedChunk => exact absurd ht (state_rejected_ne_complete s)
  | otherAnswer => exact absurd ht (state_otherByte_ne_complete hs)
  | discarded => exact absurd ht hs

/-- Of the FSM's turns, the one that takes `O` in WAIT_O alone completes the session (R175, R176). -/
theorem turnCase_complete {s t : State} (h : TurnCase s t) (hs : s.state ≠ .complete) (ht : t.state = .complete) :
    s.state = .transferringChunks ∧ s.phase = .waitO ∧ ∃ q, s.rxq = Config.codeByte .o :: q ∧
      t = { moveTo .complete .none { s with rxq := q, answer := .ok } with outcome := .complete } := by
  cases h with
  | consumes b q _ _ hq =>
    obtain ⟨hst, hp, rfl, e⟩ := received_complete (s := { s with rxq := q, answer := .ok }) (receive_cases b _) hs ht
    exact ⟨hst, hp, q, hq, e⟩
  | noStep => exact absurd ht hs
  | sendsP => rcases sendP_cases s with ⟨-, e⟩ | ⟨n, -, e⟩ <;> rw [e] at ht <;> cases ht
  | sendsR =>
    rcases sendR_cases s with ⟨-, e⟩ | ⟨n, -, e⟩ <;> rw [e] at ht
    · rw [state_createSession] at ht; cases ht
    · cases ht
  | sendsFrame c => rcases sendFrame_cases c s with ⟨-, e⟩ | ⟨n, -, e⟩ <;> rw [e] at ht <;> cases ht
  | endsPause | readFails | timesOut => cases ht

/-- Settles O53: no act of another agent enters Complete, of the FSM's turns one does, and in WAIT_O the invariant says that
every chunk has been Accepted. -/
theorem completeOnlyByO : Obligations.CompleteOnlyByO := by
  unfold Obligations.CompleteOnlyByO
  intro s t h hst hs ht
  cases sessionStep_of_step hst with
  | turn s0 hm htc =>
    have hs0 : s0.state ≠ .complete := state_of_sessionView (sessionView_of_fsmMoves hm) ▸ hs
    obtain ⟨hpos, hp, q, hq, rfl⟩ := turnCase_complete htc hs0 ht
    have hk := ((inv_of_fsmMoves h hm).counters.accepted hpos hp).1
    rcases hm with ⟨-, rfl⟩ | ⟨rest, -, rfl⟩ <;> exact ⟨hpos, hp, hq, hk, rfl, rfl, rfl, rfl⟩
  | kept hv => exact absurd (state_of_sessionView hv ▸ ht) hs
  | command w rest i hin hi hc => cases hc <;> cases ht
  | reset cut rest hin e => subst e; cases ht

/-! What a session has sent (R182). -/

/-- `out` is what sending the first `n` chunks takes: the frame of each in order, repeated 1 to CFG_MAX_RETRIES times. -/
inductive Delivered (s : State) : Nat → List Byte → Prop where
  | none : Delivered s 0 []
  | chunk {n a : Nat} {out f : List Byte} (hd : Delivered s n out) (hf : frameOf s n = some f) (hpos : 1 ≤ a)
      (hmax : a ≤ s.cfgMaxRetries.toNat) : Delivered s (n + 1) (out ++ (List.replicate a f).flatten)

/-- Each chunk's frame and its number of attempts, as two lists. -/
theorem exists_attempts_frames {s : State} {n : Nat} {out : List Byte} (h : Delivered s n out) :
    ∃ (attempts : List Nat) (frames : List (List Byte)), frames.length = n ∧ attempts.length = n ∧
      (∀ k, k < n → frameOf s k = frames[k]?) ∧ (∀ a ∈ attempts, 1 ≤ a ∧ a ≤ s.cfgMaxRetries.toNat) ∧
      out = (List.zipWith (fun a f => (List.replicate a f).flatten) attempts frames).flatten := by
  induction h with
  | none => exact ⟨[], [], rfl, rfl, by simp, by simp, rfl⟩
  | @chunk n a out f _ hf hpos hmax ih =>
    obtain ⟨attempts, frames, hfl, hal, hframe, hbound, rfl⟩ := ih
    refine ⟨attempts ++ [a], frames ++ [f], by simp [hfl], by simp [hal], fun k hk => ?frame, fun b hb => ?bound, ?sent⟩
    case frame =>
      rcases Nat.lt_succ_iff_lt_or_eq.1 hk with hk | rfl
      · rw [hframe k hk, List.getElem?_append_left (hfl ▸ hk)]
      · rw [hf, ← hfl, List.getElem?_concat_length]
    case bound =>
      rcases List.mem_append.1 hb with hb | hb
      · exact hbound b hb
      · exact List.mem_singleton.1 hb ▸ ⟨hpos, hmax⟩
    case sent => rw [List.zipWith_append (by rw [hal, hfl]), List.flatten_append]; simp

/-- `out` is `n` times the frame of chunk `k`; that the chunk has a frame is known once it has been sent. -/
def Attempted (s : State) (k n : Nat) (out : List Byte) : Prop :=
  ∃ f, (n ≠ 0 → frameOf s k = some f) ∧ out = (List.replicate n f).flatten

theorem attempted_zero (s : State) (k : Nat) : Attempted s k 0 [] := ⟨[], fun h => absurd rfl h, rfl⟩

theorem eq_nil_of_attempted_zero {s : State} {k : Nat} {out : List Byte} (h : Attempted s k 0 out) : out = [] := by
  obtain ⟨f, -, rfl⟩ := h; rfl

/-- One more attempt sends the same frame (R75). -/
theorem attempted_succ {s : State} {k n : Nat} {out f : List Byte} (h : Attempted s k n out)
    (hf : frameOf s k = some f) : Attempted s k (n + 1) (out ++ f) := by
  obtain ⟨f', hf', rfl⟩ := h
  refine ⟨f, fun _ => hf, ?_⟩
  rcases Nat.eq_zero_or_pos n with rfl | hn
  · simp
  · obtain rfl : f = f' := Option.some.inj (hf.symm.trans (hf' hn.ne'))
    rw [List.replicate_succ', List.flatten_append, List.flatten_singleton]

/-- A chunk is delivered when its attempts are over (R171). -/
theorem delivered_succ {s : State} {k n : Nat} {done cur : List Byte} (hd : Delivered s k done)
    (hc : Attempted s k n cur) (hpos : 1 ≤ n) (hmax : n ≤ s.cfgMaxRetries.toNat) :
    Delivered s (k + 1) (done ++ cur) := by
  obtain ⟨f, hf, rfl⟩ := hc
  exact hd.chunk (hf (by omega)) hpos hmax

/-- How often the frame of the current chunk has been sent: once for each rejection, and once more when its answer is
awaited (R168, R172). -/
def attemptsOf (t : State) : Nat := t.retryCnt.toNat + if t.phase = .waitResp then 1 else 0

theorem attemptsOf_waitResp {t : State} (hp : t.phase = .waitResp) : attemptsOf t = t.retryCnt.toNat + 1 := by
  rw [attemptsOf, if_pos hp]

theorem attemptsOf_other {t : State} (hp : t.phase ≠ .waitResp) : attemptsOf t = t.retryCnt.toNat := by
  rw [attemptsOf, if_neg hp]; rfl

theorem attemptsOf_congr {t u : State} (ht : t.phase ≠ .waitResp) (hu : u.phase ≠ .waitResp)
    (hr : u.retryCnt = t.retryCnt) : attemptsOf u = attemptsOf t := by
  rw [attemptsOf_other ht, attemptsOf_other hu, hr]

/-- What TX has got since `s`, by the position that the session has reached in `t`. -/
inductive Progress (s t : State) : Prop where
  | begun (hs : t.state = .awaitingLinkReady) (hp : t.phase = .sendP) (hx : t.txh = s.txh)
  | sentP (hpos : (t.state = .awaitingLinkReady ∧ t.phase = .waitK) ∨ (t.state = .sendingHandshake ∧ t.phase = .sendR))
      (hx : t.txh = s.txh ++ [Config.codeByte .p])
  | chunks (done cur : List Byte) (hs : t.state = .transferringChunks) (hd : Delivered s t.chunkIdx.toNat done)
      (hc : Attempted s t.chunkIdx.toNat (attemptsOf t) cur)
      (hx : t.txh = s.txh ++ [Config.codeByte .p] ++ [Config.codeByte .r] ++ (done ++ cur))

theorem progress_congr {s t u : State} (h : sessionView u = sessionView t) (hp : Progress s t) : Progress s u := by
  simp only [sessionView, Prod.mk.injEq] at h
  obtain ⟨hst, hph, hk, hr, htx⟩ := h
  have ha : attemptsOf u = attemptsOf t := by rw [attemptsOf, attemptsOf, hr, hph]
  cases hp with
  | begun hs hp hx => exact .begun (hst.trans hs) (hph.trans hp) (htx.trans hx)
  | sentP hpos hx => exact .sentP (by rwa [hst, hph]) (htx.trans hx)
  | chunks done cur hs hd hc hx => exact .chunks done cur (hst.trans hs) (hk ▸ hd) (by rwa [hk, ha]) (htx.trans hx)

section
variable {s t : State} (h : Progress s t)
include h

theorem txh_of_begun (hs : t.state = .awaitingLinkReady) (hp : t.phase = .sendP) : t.txh = s.txh := by
  cases h with
  | begun _ _ hx => exact hx
  | sentP hpos => simp [hs, hp] at hpos
  | chunks _ _ hs' => simp [hs] at hs'

theorem txh_of_sentP
    (hpos : (t.state = .awaitingLinkReady ∧ t.phase = .waitK) ∨ (t.state = .sendingHandshake ∧ t.phase = .sendR)) :
    t.txh = s.txh ++ [Config.codeByte .p] := by
  cases h with
  | begun hs hp => simp [hs, hp] at hpos
  | sentP _ hx => exact hx
  | chunks _ _ hs => simp [hs] at hpos

theorem exists_delivered (hs : t.state = .transferringChunks) :
    ∃ done cur, Delivered s t.chunkIdx.toNat done ∧ Attempted s t.chunkIdx.toNat (attemptsOf t) cur ∧
      t.txh = s.txh ++ [Config.codeByte .p] ++ [Config.codeByte .r] ++ (done ++ cur) := by
  cases h with
  | begun hs' => simp [hs] at hs'
  | sentP hpos => simp [hs] at hpos
  | chunks done cur _ hd hc hx => exact ⟨done, cur, hd, hc, hx⟩

/-- A move within the chunk loop that sends nothing and keeps the number of attempts. -/
theorem progress_chunkPhase {u : State} (hs : t.state = .transferringChunks) (hu : u.state = .transferringChunks)
    (hk : u.chunkIdx = t.chunkIdx) (ha : attemptsOf u = attemptsOf t) (hx : u.txh = t.txh) : Progress s u := by
  obtain ⟨done, cur, hd, hc, htx⟩ := exists_delivered h hs
  exact .chunks done cur hu (hk ▸ hd) (by rwa [hk, ha]) (hx.trans htx)

/-- A session begins with nothing delivered (R165). -/
theorem progress_createSession (hpos : t.state = .sendingHandshake ∧ t.phase = .sendR) :
    Progress s (createSession { t with txh := t.txh ++ [Config.codeByte .r], answer := .ok }) := by
  have htx := txh_of_sentP h (.inr hpos)
  have ha : attemptsOf (createSession { t with txh := t.txh ++ [Config.codeByte .r], answer := .ok }) = 0 := by
    rw [createSession_eq]
    exact attemptsOf_other (by dsimp only; split <;> nofun)
  refine .chunks [] [] (state_createSession _) ?delivered (by rw [ha]; exact attempted_zero _ _) ?sent
  case delivered => rw [createSession_eq]; exact .none
  case sent => rw [txh_createSession, htx, List.append_nil, List.append_nil]

/-- One more attempt at the current chunk (R168). -/
theorem progress_sendFrame {c : List Byte} (hs : t.state = .transferringChunks) (hp : t.phase = .sendFrame)
    (hf : frameOf s t.chunkIdx.toNat = some (encodeFrame c)) :
    Progress s (moveTo .transferringChunks .waitResp
      { loadChunk c t with txh := t.txh ++ encodeFrame c, answer := .ok }) := by
  obtain ⟨done, cur, hd, hc, htx⟩ := exists_delivered h hs
  rw [attemptsOf_other (by rw [hp]; nofun)] at hc
  refine .chunks done (cur ++ encodeFrame c) rfl hd (attempted_succ hc hf) ?_
  rw [moveTo_txh, htx]
  simp only [List.append_assoc]

/-- An Accepted chunk is delivered, with as many attempts as the retries allow (R171). -/
theorem progress_accepted (hI : Inv t) (hmax : t.cfgMaxRetries = s.cfgMaxRetries) (hs : t.state = .transferringChunks)
    (hp : t.phase = .waitResp) : Progress s (accepted t) := by
  obtain ⟨done, cur, hd, hc, htx⟩ := exists_delivered h hs
  obtain ⟨hk, hr⟩ := hI.counters.chunk hs (by rw [hp]; nofun)
  have hidx : (accepted t).chunkIdx.toNat = t.chunkIdx.toNat + 1 := by
    rw [accepted_eq hs]; exact toNat_chunkIdx_succ hk
  have hdone : Delivered s (t.chunkIdx.toNat + 1) (done ++ cur) := by
    rw [attemptsOf_waitResp hp] at hc
    exact delivered_succ hd hc (by omega) (hmax ▸ BitVec.lt_def.1 hr)
  have hzero : attemptsOf (accepted t) = 0 := by
    rw [accepted_eq hs]
    exact attemptsOf_other (by dsimp only; split <;> nofun)
  refine .chunks (done ++ cur) [] (state_accepted t) (hidx ▸ hdone) (by rw [hzero]; exact attempted_zero _ _) ?_
  rw [txh_of_linkStreams (linkStreams_accepted t), htx, List.append_nil]

/-- A rejection counts the attempt that was under way, or ends the session (R172). -/
theorem progress_rejected (hI : Inv t) (hs : t.state = .transferringChunks) (hp : t.phase = .waitResp)
    (hb : busy (rejected t) = true) : Progress s (rejected t) := by
  by_cases hmax : t.cfgMaxRetries ≤ t.retryCnt + 1
  · rw [rejected_last hmax] at hb; cases hb
  · rw [rejected_retry hmax]
    refine progress_chunkPhase h hs rfl rfl ?_ rfl
    rw [attemptsOf_waitResp hp, attemptsOf_other (by rw [enterPause_phase]; nofun)]
    exact toNat_retryCnt_succ (hI.counters.chunk hs (by rw [hp]; nofun)).2

theorem progress_otherByte (hI : Inv t) (hs : t.state = .transferringChunks) (hp : t.phase = .waitResp)
    (hb : busy (otherByte t) = true) : Progress s (otherByte t) := by
  unfold otherByte at hb ⊢
  split at hb
  · exact progress_rejected (t := setProtoViol t) (progress_congr (t := t) rfl h) (inv_of_invView_eq hI rfl) hs hp hb
  · exact h
  · cases hb

/-- Consuming a byte keeps the session's progress, as long as the session lasts. -/
theorem progress_received {u : State} {b : Byte} (hI : Inv t) (hmax : t.cfgMaxRetries = s.cfgMaxRetries)
    (hr : Received b t u) (hb : busy u = true) : Progress s u := by
  cases hr with
  | linkReady hs hp =>
    have htx := txh_of_sentP h (.inl ⟨hs, hp⟩)
    exact .sentP (.inr ⟨rfl, rfl⟩) htx
  | targetReady hs hp =>
    have ha : attemptsOf (moveTo .transferringChunks .sendFrame t) = attemptsOf t :=
      attemptsOf_congr (by rw [hp]; nofun) (by rw [moveTo_phase]; nofun) rfl
    exact progress_chunkPhase h hs rfl rfl ha rfl
  | acceptedChunk hs hp => exact progress_accepted h hI hmax hs hp
  | rejectedChunk hs hp => exact progress_rejected h hI hs hp hb
  | otherAnswer hs hp => exact progress_otherByte h hI hs hp hb
  | writeComplete => cases hb
  | discarded => exact h

/-- The FSM's turn keeps the session's progress, as long as the session lasts. -/
theorem progress_turn {u : State} (hI : Inv t) (hmax : t.cfgMaxRetries = s.cfgMaxRetries)
    (hf : ∀ k, frameOf t k = frameOf s k) (ht : TurnCase t u) (hb : busy u = true) : Progress s u := by
  cases ht with
  | noStep => exact h
  | sendsP hs hp =>
    rcases sendP_cases t with ⟨-, e⟩ | ⟨n, -, e⟩ <;> rw [e] at hb ⊢
    · exact .sentP (.inl ⟨rfl, rfl⟩) (by rw [moveTo_txh, txh_of_begun h hs hp])
    · cases hb
  | sendsR hs hp =>
    rcases sendR_cases t with ⟨-, e⟩ | ⟨n, -, e⟩ <;> rw [e] at hb ⊢
    · exact progress_createSession h ⟨hs, hp⟩
    · cases hb
  | sendsFrame c hs hp _ hc =>
    rcases sendFrame_cases c t with ⟨-, e⟩ | ⟨n, -, e⟩ <;> rw [e] at hb ⊢
    · exact progress_sendFrame h hs hp ((hf _).symm.trans (frameOf_of_currentChunk hc))
    · cases hb
  | endsPause hs hp =>
    have ha : attemptsOf (endPause t) = attemptsOf t :=
      attemptsOf_congr (by rw [hp]; nofun) (by rw [endPause_phase]; nofun) rfl
    exact progress_chunkPhase h hs rfl rfl ha rfl
  | consumes b q =>
    have hp' : Progress s { t with rxq := q, answer := .ok } := progress_congr (t := t) rfl h
    exact progress_received hp' (inv_of_invView_eq hI rfl) hmax (receive_cases b _) hb
  | readFails | timesOut => cases hb

/-- A step keeps the session's progress, as long as the session lasts: no act of another agent sends or moves it. -/
theorem progress_step {u : State} (hI : Inv t) (hmax : t.cfgMaxRetries = s.cfgMaxRetries)
    (hf : ∀ k, frameOf t k = frameOf s k) (hbt : busy t = true) (hst : step t = .next u) (hb : busy u = true) :
    Progress s u := by
  cases sessionStep_of_step hst with
  | turn t0 hm ht =>
    have hI0 := inv_of_fsmMoves hI hm
    have hp0 : Progress s t0 := progress_congr (sessionView_of_fsmMoves hm) h
    rcases hm with ⟨-, rfl⟩ | ⟨rest, -, rfl⟩ <;> exact progress_turn hp0 hI0 hmax hf ht hb
  | kept hv => exact progress_congr hv h
  | command w rest i hin hi hc =>
    cases hc with
    | start hs => simp [busy, show t.state = .idle from hs] at hbt
    | clear hb' | cancel => cases hb
  | reset cut rest hin e => subst e; cases hb

end

/-- A busy state `t` of the session that began in `s`: the session's inputs are those of `s`, and TX tells its progress. -/
structure InSession (s t : State) : Prop where
  inv : Inv t
  imgLen : t.imgLen = s.imgLen
  maxRetries : t.cfgMaxRetries = s.cfgMaxRetries
  frames : ∀ k, frameOf t k = frameOf s k
  progress : Progress s t

/-- Every busy state of a session's run is in the session. -/
theorem inSession_of_run {s t : State} (h : Inv s) (hs : s.state = .awaitingLinkReady) (hp : s.phase = .sendP)
    (hrun : SessionRun s t) (hb : busy t = true) : InSession s t := by
  induction hrun with
  | start => exact ⟨h, rfl, rfl, fun _ => rfl, .begun hs hp rfl⟩
  | @next t u _ hbt hst ih =>
    obtain ⟨hI, hlen, hmax, hf, hprog⟩ := ih hbt
    obtain ⟨hlen', hmax', -, -, hf'⟩ := sessionInputsStayFixed.1 t u hI hbt hst hb
    exact ⟨stepKeepsInvariant t u hI hst, hlen'.trans hlen, hmax'.trans hmax, fun k => (hf' k).trans (hf k),
      progress_step hprog hI hmax hf hbt hst hb⟩

/-- In WAIT_O a session has delivered every chunk and nothing else (R171). -/
theorem delivered_of_waitO {s t : State} (h : InSession s t) (hs : t.state = .transferringChunks)
    (hp : t.phase = .waitO) : ∃ out, Delivered s (chunkCount s.imgLen.toNat) out ∧
      t.txh = s.txh ++ [Config.codeByte .p] ++ [Config.codeByte .r] ++ out := by
  obtain ⟨done, cur, hd, hc, htx⟩ := exists_delivered h.progress hs
  obtain ⟨hk, hr⟩ := h.inv.counters.accepted hs hp
  rw [imageChunks, h.imgLen] at hk
  rw [attemptsOf_other (by rw [hp]; nofun), hr] at hc
  obtain rfl := eq_nil_of_attempted_zero hc
  exact ⟨done, hk ▸ hd, by rw [htx, List.append_nil]⟩

/-- Settles O60: the last step of the run takes `O` in WAIT_O and sends nothing (O53), and there the progress of the session
is that every chunk has been delivered. -/
theorem completedSessionSentEveryFrame : Obligations.CompletedSessionSentEveryFrame := by
  unfold Obligations.CompletedSessionSentEveryFrame
  intro s t h hs hp hrun ht
  cases hrun with
  | start => rw [hs] at ht; cases ht
  | @next u _ hrun hb hst =>
    have hin := inSession_of_run h hs hp hrun hb
    have hne : u.state ≠ .complete := fun e => by simp [busy, e] at hb
    obtain ⟨hsu, hpu, -, -, -, -, -, htx⟩ := completeOnlyByO u t hin.inv hst hne ht
    obtain ⟨out, hd, hout⟩ := delivered_of_waitO hin hsu hpu
    obtain ⟨attempts, frames, hfl, hal, hframe, hbound, rfl⟩ := exists_attempts_frames hd
    exact ⟨attempts, frames, hfl, hal, hframe, hbound, htx.trans hout⟩

end Sys2Proof.Proofs
end

section
/-! PROOFS of the family `60_exceptions`: how Aborted is entered (R222, R230), and that the first abort wins (R232). -/

namespace Sys2Proof.Proofs

open Sys2Proof Sys2Proof.Machine Sys2Proof.Safety

/-! The first abort wins (R35, R232). -/

/-- The error registers (R35). -/
def errorRegisters (s : State) : Cause × BitVec 32 := (s.errCause, s.errChunk)

theorem busy_of_aborted {s : State} (hs : s.state = .aborted) : busy s = false := by simp [busy, hs]

section
variable {s t : State} (hb : busy s = false) (ht : t.state = .aborted)
include hb ht

/-- CLEAR leaves Aborted and CANCEL asks for BUSY = 1; no other command writes the error registers (R180, R181). -/
theorem errorRegisters_command (h : CommandCase s t) : errorRegisters t = errorRegisters s := by
  cases h with
  | clears => cases ht
  | cancels hb' => rw [hb] at hb'; cases hb'
  | nop | refused | checksums | encodes | checks | starts => rfl

/-- The error registers are read-only, and reset leaves Aborted (R40, R250). -/
theorem errorRegisters_input {i : Input} (h : InputCase s i t) : errorRegisters t = errorRegisters s := by
  cases h with
  | command v hc => exact errorRegisters_command hb ht hc
  | store n v _ hc => cases hc <;> rfl
  | bufWrite w => cases w <;> rfl
  | reset => cases ht
  | regRead | bufRefused | bufRead | bufReadOutside | rx | errLink | timeOut | elapse | imgPlace => rfl

end

/-- Settles O55: in Aborted BUSY = 0, so the FSM has no step, and of the acts of the other agents those that write the
error registers leave Aborted. -/
theorem firstAbortWins : Obligations.FirstAbortWins := by
  unfold Obligations.FirstAbortWins
  intro s t _ hs h ht
  have hb : busy s = false := busy_of_aborted hs
  have hkept : errorRegisters t = errorRegisters s := by
    rcases step_cases h with ⟨s0, ⟨-, rfl⟩ | ⟨rest, -, rfl⟩, hturn⟩ | ⟨i, rest, -, -, hi⟩
    · rw [turnCase_of_not_busy hb hturn]
    · rw [turnCase_of_not_busy (s := { s with inputs := rest }) hb hturn]; rfl
    · exact errorRegisters_input (s := { s with inputs := rest }) hb ht hi
  exact ⟨congrArg Prod.fst hkept, congrArg Prod.snd hkept⟩

/-! The abort entry (R222, R230). -/

/-- `t` has entered Aborted from `s`: what an abort asks of `s` and keeps of it. What else it leaves in `t` is what the
invariant says of Aborted. -/
structure AbortEntry (s t : State) : Prop where
  wasBusy : busy s = true
  chunkIdx : t.chunkIdx = s.chunkIdx
  retriesUsedUp : t.errCause = .chunkRejectedExceededRetries → t.retryCnt = t.cfgMaxRetries
  retriesKept : t.errCause ≠ .chunkRejectedExceededRetries → t.retryCnt = s.retryCnt

/-- Where an abort starts from is told by the session's position and counters. -/
theorem abortEntry_congr {s s0 t : State} (hv : sessionView s0 = sessionView s) (h : AbortEntry s0 t) :
    AbortEntry s t := by
  simp only [sessionView, Prod.mk.injEq] at hv
  obtain ⟨hst, -, hk, hr, -⟩ := hv
  have hb : busy s0 = busy s := by rw [busy_eq_decide, busy_eq_decide, hst]
  exact ⟨hb ▸ h.wasBusy, h.chunkIdx.trans hk, h.retriesUsedUp, fun hc => (h.retriesKept hc).trans hr⟩

/-- An abort for any cause but the used-up retries leaves both counters alone (R230). -/
theorem abortEntry_raise {s u : State} {cause : Cause} (hb : busy s = true)
    (hc : cause ≠ .chunkRejectedExceededRetries) (hk : u.chunkIdx = s.chunkIdx) (hr : u.retryCnt = s.retryCnt) :
    AbortEntry s (raise cause u) :=
  ⟨hb, hk, fun e => absurd e hc, fun _ => hr⟩

theorem busy_of_transferring {s : State} (hs : s.state = .transferringChunks) : busy s = true := by simp [busy, hs]

section
variable {s : State} (hI : Inv s)
include hI

/-- A rejection that aborts has counted RETRY_CNT, below CFG_MAX_RETRIES until then, up to it (R34, R172, R222). -/
theorem abortEntry_rejected (hs : s.state = .transferringChunks) (hp : s.phase = .waitResp)
    (ht : (rejected s).state = .aborted) : AbortEntry s (rejected s) := by
  by_cases hmax : s.cfgMaxRetries ≤ s.retryCnt + 1
  · rw [rejected_last hmax]
    have hlt : s.retryCnt < s.cfgMaxRetries := (hI.counters.chunk hs (by rw [hp]; nofun)).2
    have husedUp : s.retryCnt + 1 = s.cfgMaxRetries := by
      have hsucc := toNat_retryCnt_succ hlt
      bv_omega
    exact ⟨busy_of_transferring hs, rfl, fun _ => husedUp, fun e => absurd rfl e⟩
  · rw [rejected_retry hmax] at ht; cases ht

/-- An other byte aborts as a rejection under REJECT, at once under FATAL (R173). -/
theorem abortEntry_otherByte (hs : s.state = .transferringChunks) (hp : s.phase = .waitResp)
    (ht : (otherByte s).state = .aborted) : AbortEntry s (otherByte s) := by
  unfold otherByte at ht ⊢
  split at ht
  · have hI' : Inv (setProtoViol s) := inv_of_invView_eq hI rfl
    exact abortEntry_congr (s0 := setProtoViol s) rfl (abortEntry_rejected hI' hs hp ht)
  · rw [hs] at ht; cases ht
  · exact abortEntry_raise (busy_of_transferring hs) nofun rfl rfl

/-- Of the bytes a session consumes, only answers to a frame abort it (R172, R173). -/
theorem abortEntry_received {t : State} {b : Byte} (hs : s.state ≠ .aborted) (h : Received b s t)
    (ht : t.state = .aborted) : AbortEntry s t := by
  cases h with
  | rejectedChunk hst hp => exact abortEntry_rejected hI hst hp ht
  | otherAnswer hst hp => exact abortEntry_otherByte hI hst hp ht
  | acceptedChunk => rw [state_accepted] at ht; cases ht
  | linkReady | targetReady | writeComplete => cases ht
  | discarded => exact absurd ht hs

/-- A turn of the FSM aborts on a byte, or where its link access fails (R178, R179). -/
theorem abortEntry_turn {t : State} (hs : s.state ≠ .aborted) (h : TurnCase s t) (ht : t.state = .aborted) :
    AbortEntry s t := by
  cases h with
  | noStep => exact absurd ht hs
  | endsPause => cases ht
  | sendsP hst =>
    rcases sendP_cases s with ⟨-, e⟩ | ⟨n, -, e⟩ <;> rw [e] at ht ⊢
    · cases ht
    · exact abortEntry_raise (by simp [busy, hst]) nofun rfl rfl
  | sendsR hst =>
    rcases sendR_cases s with ⟨-, e⟩ | ⟨n, -, e⟩ <;> rw [e] at ht ⊢
    · rw [state_createSession] at ht; cases ht
    · exact abortEntry_raise (by simp [busy, hst]) nofun rfl rfl
  | sendsFrame c hst =>
    rcases sendFrame_cases c s with ⟨-, e⟩ | ⟨n, -, e⟩ <;> rw [e] at ht ⊢
    · cases ht
    · exact abortEntry_raise (busy_of_transferring hst) nofun rfl rfl
  | consumes b q =>
    have hI' : Inv { s with rxq := q, answer := .ok } := inv_of_invView_eq hI rfl
    exact abortEntry_congr (s0 := { s with rxq := q, answer := .ok }) rfl
      (abortEntry_received hI' hs (receive_cases b _) ht)
  | readFails _ hr | timesOut hr => exact abortEntry_raise (busy_of_reads hr) nofun rfl rfl

/-- A step aborts by a turn of the FSM or by CANCEL (R181, R230). -/
theorem abortEntry_step {t : State} (hs : s.state ≠ .aborted) (h : step s = .next t) (ht : t.state = .aborted) :
    AbortEntry s t := by
  cases sessionStep_of_step h with
  | turn s0 hm hturn =>
    have hv := sessionView_of_fsmMoves hm
    have hs0 : s0.state ≠ .aborted := state_of_sessionView hv ▸ hs
    exact abortEntry_congr hv (abortEntry_turn (inv_of_fsmMoves hI hm) hs0 hturn ht)
  | kept hv => exact absurd (state_of_sessionView hv ▸ ht) hs
  | command w rest i hin hi hc =>
    cases hc with
    | cancel hb => exact abortEntry_raise hb nofun rfl rfl
    | start | clear => cases ht
  | reset cut rest hin e => subst e; cases ht

end

/-- In Aborted the PHASE is NONE (R31). -/
theorem phase_none_of_aborted {ph : Phase} (h : legalPosition .aborted ph = true) : ph = .none := by
  cases ph with
  | none => rfl
  | sendP | waitK | sendR | waitT | sendFrame | waitResp | retryDelay | waitO => cases h

/-- Settles O56: what the entry leaves is what the invariant says of Aborted (O50); that it starts busy and what it does
to the counters is said of each way in. -/
theorem abortEntryRecordsAndReleases : Obligations.AbortEntryRecordsAndReleases := by
  unfold Obligations.AbortEntryRecordsAndReleases
  intro s t hI h hs ht
  obtain ⟨hb, hk, husedUp, hkept⟩ := abortEntry_step hI hs h ht
  obtain ⟨hpos, hout, -, herr, -, -, -⟩ := stepKeepsInvariant s t hI h
  obtain ⟨hcause, hchunk⟩ := herr.aborted ht
  rw [ht] at hpos hout
  exact ⟨hb, busy_of_aborted ht, by simp [failed, ht], phase_none_of_aborted hpos, hout, hcause, hchunk.trans hk, hk,
    husedUp, hkept⟩

end Sys2Proof.Proofs
end

section
/-! PROOFS of the family `70_reset_and_hazards`: hardware reset in any state (R250, R251). -/

namespace Sys2Proof.Proofs

open Sys2Proof Sys2Proof.Machine Sys2Proof.Safety

/-- Reset is one step, and what it cuts off does not depend on the input it takes (R250, R251; log entry 11). -/
theorem step_of_reset {s : State} {cut : Nat} {rest : List Input} (h : s.inputs = .reset cut :: rest) :
    step s = .next { State.reset with
      rxq := s.rxq, txh := s.txh ++ cutFrame cut s, img := s.img, params := s.params
      inputs := rest, answer := s.answer, portData := s.portData } :=
  step_of_input h

/-- Settles O48: the bytes that still go out are those of `cutFrame`, and a frame of the current chunk exists exactly
where its bytes are placed. -/
theorem resetAbandonsTheSession : Obligations.ResetAbandonsTheSession := by
  unfold Obligations.ResetAbandonsTheSession
  intro s cut rest hin
  refine ⟨cutFrame cut s, step_of_reset hin, ?_⟩
  rcases cutFrame_cases cut s with ⟨c, ⟨hs, hp, hk, hc⟩, hout⟩ | ⟨hno, hout⟩
  · have hframe := frameOf_of_currentChunk hc
    refine ⟨fun f _ _ _ hf => ?_, fun hno => absurd ⟨hs, hp, hk, hframe ▸ Option.some_ne_none _⟩ hno⟩
    obtain rfl : encodeFrame c = f := Option.some.inj (hframe.symm.trans hf)
    exact hout
  · refine ⟨fun f hs hp hk hf => absurd ⟨hs, hp, hk, fun hc => ?_⟩ hno, fun _ => hout⟩
    exact Option.some_ne_none f (hf.symm.trans (frameOf_eq_none hc))

end Sys2Proof.Proofs
end
